-- ==== Sys2Proof/Word.lean ====
section
/-! DEFINITION. The word types of the block (00_scope.md R8, R9): bits are numbered from the least
significant one (log 17), a word is a bit vector, a signed field is held as its bit pattern. -/

namespace Sys2Proof

/-- `u8`: one byte (R9). -/
abbrev Byte := BitVec 8

/-- `u16`, and the bit pattern of an `i16` (R9). -/
abbrev U16 := BitVec 16

/-- `u32`: every time value, in milliseconds (R9, R16). -/
abbrev U32 := BitVec 32

end Sys2Proof
end

