-- ==== Sys2Proof/Config.lean ====
section
/-! DEFINITION. What a build fixes: the constants of 00_scope.md R6, the types of the scenario table
(30_encoding.md R110 to R112), the parameters of R7, and the one free value (log 27). -/

namespace Sys2Proof

/-- `NCH`: channels per ChannelSet (R6). -/
abbrev NCH : Nat := 8

/-- `REC_LEN`: bytes of one record on the wire (R6). -/
abbrev REC_LEN : Nat := 7

/-- `FRAME_LEN`: bytes of one frame (R6). -/
abbrev FRAME_LEN : Nat := 58

/-- `HEADER`: the byte at offset 0 of every frame (R6). -/
abbrev HEADER : Byte := 0xAA

/-- `CK_OFF`: the offset of the checksum byte (R6). -/
abbrev CK_OFF : Nat := 57

/-- `V_MAX`: the largest valid voltage in millivolt (R6). -/
abbrev V_MAX : Nat := 16000

/-- `I_MAX`: the largest valid current in milliamp (R6). -/
abbrev I_MAX : Nat := 50000

/-- `T_MIN`: the lowest valid temperature in tenths of a degree (R6). -/
abbrev T_MIN : Int := -400

/-- `T_MAX`: the highest valid temperature in tenths of a degree (R6). -/
abbrev T_MAX : Int := 1250

/-- `ST_ON`: status bit 0 (R6, R93). -/
abbrev ST_ON : Byte := 0x01

/-- `ST_FAULT`: status bit 1 (R6, R93). -/
abbrev ST_FAULT : Byte := 0x02

/-- `ST_OVER_CURRENT`: status bit 2 (R6, R93). -/
abbrev ST_OVER_CURRENT : Byte := 0x04

/-- `ST_OVER_TEMP`: status bit 3 (R6, R93). -/
abbrev ST_OVER_TEMP : Byte := 0x08

/-- `ST_RSVD`: the reserved status bits 7 to 4 (R6, R93). -/
abbrev ST_RSVD : Byte := 0xF0

/-- The status bits a frame carries, 3 to 0: the complement of `ST_RSVD` (R94, R95). -/
abbrev ST_CARRIED : Byte := 0x0F

/-- `NONE`: the value of `scn_id` and `cur_event` when there is none (R46, R49). -/
abbrev NONE : BitVec 8 := 0xFF

/-- `OVSPEC`, an override spec (R111): which fields it selects and what they become. -/
structure OvSpec where
  /-- bit 0 voltage, bit 1 current, bit 2 temperature, bit 3 status -/
  mask : BitVec 4
  voltageMv : U16
  currentMa : U16
  /-- the bit pattern `asu16(temperature_decic)` -/
  temperatureDecic : U16
  /-- status bits 3:0 forced to 1 -/
  stSet : BitVec 4
  /-- status bits 3:0 forced to 0 -/
  stClr : BitVec 4
  deriving DecidableEq, Repr

/-- `ENTRY`, one timeline entry (R112). Bit 63 of its packing is reserved and always 0 here. -/
structure Entry where
  offsetMs : U32
  channel : Fin 8
  spec : OvSpec
  eventText : String
  deriving DecidableEq, Repr

/-- `SCN`, one scenario of the table (R110); `n_entries` is the length of `entries`. -/
structure Scenario where
  name : String
  description : String
  durationMs : U32
  entries : List Entry
  deriving DecidableEq, Repr

/-- The parameters of R7, fixed when the block is built (R56). `N_SCN` is the length of `rom`. -/
structure Config where
  /-- `PACKET_INTERVAL_MS`, used by no rule (R7) -/
  packetIntervalMs : Nat
  /-- `LINK_TIMEOUT_MS` -/
  linkTimeoutMs : U32
  /-- `SETTLE_MS` -/
  settleMs : U32
  /-- `MAX_ENTRIES` -/
  maxEntries : Nat
  /-- `SCN_ROM` -/
  rom : List Scenario
  deriving DecidableEq, Repr

/-- `N_SCN`, the number of scenarios (R7, R110). -/
def Config.nScn (cfg : Config) : Nat := cfg.rom.length

/-- FREE VALUE: what the 8-bit `cur_event` (R49) holds after the entry of a given index fired, where the
index does not fit in 8 bits. `MAX_ENTRIES` is a natural (R7), so such a table can be well formed, and the
spec states no value (DESIGN CHOICE, log 27). -/
opaque Config.wideEvent : Nat → BitVec 8

end Sys2Proof
end

