-- ==== Sys2Proof/Syntax.lean ====
section
/-! DEFINITION. The data an operation carries, the operations (one constructor per row of
spec/opcode_table.json) and the raw requests an agent puts on the input ports. -/

namespace Sys2Proof

/-- `CHREC`, a channel record (10_state.md R22): 56 bits in all, every bit pattern representable. -/
structure ChRec where
  voltageMv : U16
  currentMa : U16
  /-- the bit pattern of the `i16` (R9) -/
  temperatureDecic : U16
  status : Byte
  deriving DecidableEq, Repr

/-- `SET`, a ChannelSet (R23): exactly 8 records, index = array position. -/
abbrev ChannelSet := Vector ChRec 8

/-- A `SET` as it stands on a 448-bit port (R102): lane `c` is bits `56*c+55 : 56*c`, in `CHREC`
packing. -/
abbrev SetLanes := Vector (BitVec 56) 8

/-- The operations of the block, one constructor per row of spec/opcode_table.json, in its order. -/
inductive Instr where
  /-- ENC_NOP (R138) -/
  | encNop
  /-- ENC_LOAD set (R134) -/
  | encLoad (set : ChannelSet)
  /-- ENC_EMIT (R135, R136) -/
  | encEmit
  /-- ENC_RSV, reserved code 3 (R139) -/
  | encRsv
  /-- RX_NOP (R178) -/
  | rxNop
  /-- RX_BYTE b (R170) -/
  | rxByte (b : Byte)
  /-- RX_TIME dt (R176) -/
  | rxTime (dt : U32)
  /-- RX_RSV, reserved code 3 (R179) -/
  | rxRsv
  /-- SC_NOP (R226) -/
  | scNop
  /-- SC_TRIGGER id (R209) -/
  | scTrigger (id : BitVec 8)
  /-- SC_TICK dt (R220) -/
  | scTick (dt : U32)
  /-- SC_RSV, reserved code 3 (R227) -/
  | scRsv
  /-- RESET (R300) -/
  | reset
  /-- SNAP_READ (R180) -/
  | snapRead
  /-- SC_STATUS (R230) -/
  | scStatus
  /-- OV_READ (R231) -/
  | ovRead
  /-- OV_APPLY nom (R232) -/
  | ovApply (nom : ChannelSet)
  /-- ENCODE set, pseudo-operation (R124, R137) -/
  | encode (set : ChannelSet)
  /-- RX_BYTES b0 ... bn, pseudo-operation (R124) -/
  | rxBytes (bs : List Byte)
  /-- DECODE bytes, pseudo-operation (R124, R162) -/
  | decode (buf : List Byte)
  /-- SC_TICKS n dt, pseudo-operation (R124) -/
  | scTicks (n : Nat) (dt : U32)
  /-- PRODUCE dt nominal, pseudo-operation (R124, R320) -/
  | produce (dt : U32) (nom : ChannelSet)
  deriving DecidableEq, Repr

/-- The "format" column of spec/opcode_table.json: the ports an operation is presented on. -/
inductive Format where
  | encCmd | rxCmd | scCmd | rst | readPort | pseudo
  deriving DecidableEq, Repr

/-- What an agent presents, as raw port values (30_encoding.md R115 to R119). A command port's request
carries every input port of its unit; the ports its command does not use are ignored (U18). The reads
have no code and the pseudo-operations no encoding (R118, R124): their form here is the model's own
(DESIGN CHOICE, log 2). -/
inductive Request where
  /-- `rst` -/
  | rst (rst : BitVec 1)
  /-- `enc_cmd`, `enc_din` (R115) -/
  | encCmd (cmd : BitVec 2) (din : SetLanes)
  /-- `rx_cmd`, `rx_data`, `rx_dt_ms` (R116) -/
  | rxCmd (cmd : BitVec 2) (data : Byte) (dt : U32)
  /-- `sc_cmd`, `sc_id`, `sc_dt_ms` (R117) -/
  | scCmd (cmd : BitVec 2) (id : BitVec 8) (dt : U32)
  | readSnap
  | readStatus
  | readOv
  /-- `nom_in` driven, `eff_out` read (R117, R118) -/
  | readEff (nomIn : SetLanes)
  | pseudoEncode (din : SetLanes)
  | pseudoRxBytes (bs : List Byte)
  | pseudoDecode (buf : List Byte)
  | pseudoScTicks (n : Nat) (dt : U32)
  | pseudoProduce (dt : U32) (nomIn : SetLanes)
  deriving DecidableEq, Repr

/-- The ports a request drives. -/
def Request.format : Request → Format
  | .rst _ => .rst
  | .encCmd _ _ => .encCmd
  | .rxCmd _ _ _ => .rxCmd
  | .scCmd _ _ _ => .scCmd
  | .readSnap => .readPort
  | .readStatus => .readPort
  | .readOv => .readPort
  | .readEff _ => .readPort
  | .pseudoEncode _ => .pseudo
  | .pseudoRxBytes _ => .pseudo
  | .pseudoDecode _ => .pseudo
  | .pseudoScTicks _ _ => .pseudo
  | .pseudoProduce _ _ => .pseudo

/-- The "format" column of an operation's row. -/
def Instr.format : Instr → Format
  | .encNop => .encCmd
  | .encLoad _ => .encCmd
  | .encEmit => .encCmd
  | .encRsv => .encCmd
  | .rxNop => .rxCmd
  | .rxByte _ => .rxCmd
  | .rxTime _ => .rxCmd
  | .rxRsv => .rxCmd
  | .scNop => .scCmd
  | .scTrigger _ => .scCmd
  | .scTick _ => .scCmd
  | .scRsv => .scCmd
  | .reset => .rst
  | .snapRead => .readPort
  | .scStatus => .readPort
  | .ovRead => .readPort
  | .ovApply _ => .readPort
  | .encode _ => .pseudo
  | .rxBytes _ => .pseudo
  | .decode _ => .pseudo
  | .scTicks _ _ => .pseudo
  | .produce _ _ => .pseudo

end Sys2Proof
end

