-- ==== Sys2Proof/Machine/Operands.lean ====
section
/-! DEFINITION. The pure functions of the block over bytes, records, sets, override specs and frames:
checksums, saturation, byte order, packings, the frame and its parse, the override merge and mux, the
derived fields and the engineering units. -/

namespace Sys2Proof.Machine

/-! ### Bytes and numbers -/

/-- `xor8(s)`, the exclusive-or of a list of bytes, 0x00 for the empty list (R11). -/
def xor8 (s : List Byte) : Byte := s.foldl (fun acc b => acc ^^^ b) 0x00#8

/-- `sat32(n)` (R12). -/
def sat32 (n : Nat) : U32 := BitVec.ofNat 32 (min n 4294967295)

/-- The saturating sum of two `u32` values: formed as a natural number, then saturated (R12). -/
def satAdd32 (a b : U32) : U32 := sat32 (a.toNat + b.toNat)

/-- `le16(lo, hi)` (R66). -/
def le16 (lo hi : Byte) : U16 := hi ++ lo

/-- `asu16(t)`: the bit pattern of an `i16`, two's complement (R9, log 17). -/
def asu16 (t : Int) : U16 := BitVec.ofInt 16 t

/-- `asi16(w)`: the integer a bit pattern means (R9, log 17). -/
def asi16 (w : U16) : Int := w.toInt

/-- Bits 7:0 of a 16-bit field: the byte at the lower offset (R65). -/
def loByte (w : U16) : Byte := w.extractLsb' 0 8

/-- Bits 15:8 of a 16-bit field: the byte at the higher offset (R65). -/
def hiByte (w : U16) : Byte := w.extractLsb' 8 8

/-! ### Records and sets -/

/-- The all-zero record. -/
def zeroRec : ChRec := ⟨0, 0, 0, 0⟩

/-- The all-zero set: the reset value of `enc_set` and `snap` (R26, R37). -/
def zeroSet : ChannelSet := Vector.replicate 8 zeroRec

/-- `CHREC` packing of a record (R92). -/
def packRec (r : ChRec) : BitVec 56 := r.status ++ r.temperatureDecic ++ r.currentMa ++ r.voltageMv

/-- The record a 56-bit `CHREC` value holds (R92). -/
def unpackRec (v : BitVec 56) : ChRec :=
  { voltageMv := v.extractLsb' 0 16
    currentMa := v.extractLsb' 16 16
    temperatureDecic := v.extractLsb' 32 16
    status := v.extractLsb' 48 8 }

/-- A set as the 8 lanes of a 448-bit port (R102). -/
def packLanes (s : ChannelSet) : SetLanes := Vector.ofFn fun c => packRec s[c]

/-- The set the 8 lanes of a port hold (R102). -/
def unpackLanes (v : SetLanes) : ChannelSet := Vector.ofFn fun c => unpackRec v[c]

/-- The 448 bits of a set on a port: channel `c` at bits `56*c+55 : 56*c` (R102). -/
def packSet (s : ChannelSet) : BitVec 448 :=
  (packRec s[7] ++ packRec s[6] ++ packRec s[5] ++ packRec s[4]
    ++ packRec s[3] ++ packRec s[2] ++ packRec s[1] ++ packRec s[0])

/-- `status & 0x0F`: the status byte with its reserved bits cleared (R94, R95). -/
def carriedStatus (st : Byte) : Byte := st &&& ST_CARRIED

/-- A record with its reserved status bits cleared (R167). -/
def canonRec (r : ChRec) : ChRec := { r with status := carriedStatus r.status }

/-- `canon(s)` (R167). -/
def canon (s : ChannelSet) : ChannelSet := Vector.ofFn fun c => canonRec s[c]

/-- `total_current_ma(s)`, the sum of the eight currents, no wrap (R24). -/
def totalCurrentMa (s : ChannelSet) : Nat := (s.toList.map fun r => r.currentMa.toNat).sum

/-- `system_voltage_mv(s)`, the largest of the eight voltages (R25). -/
def systemVoltageMv (s : ChannelSet) : Nat :=
  (s.toList.map fun r => r.voltageMv.toNat).foldl max 0

/-! ### Engineering units: exact rationals, outside the registers (R98) -/

/-- Volts of a record (R98). -/
def volts (r : ChRec) : Rat := (r.voltageMv.toNat : Rat) / 1000

/-- Amperes of a record (R98). -/
def amperes (r : ChRec) : Rat := (r.currentMa.toNat : Rat) / 1000

/-- Degrees Celsius of a record (R98). -/
def celsius (r : ChRec) : Rat := (asi16 r.temperatureDecic : Rat) / 10

/-- Seconds of a time in milliseconds (R98). -/
def seconds (ms : U32) : Rat := (ms.toNat : Rat) / 1000

/-! ### The frame -/

/-- The 7 wire bytes of one record, offset order (R92, R97). -/
def wireBytes (r : ChRec) : List Byte :=
  [loByte r.voltageMv, hiByte r.voltageMv,
   loByte r.currentMa, hiByte r.currentMa,
   loByte r.temperatureDecic, hiByte r.temperatureDecic,
   carriedStatus r.status]

/-- Offsets 0 to 56 of a frame: the header and the eight records (R91, R130). -/
def frameBody (s : ChannelSet) : List Byte := HEADER :: s.toList.flatMap wireBytes

/-- `frame(s)`: the 58 bytes (R130). -/
def frame (s : ChannelSet) : List Byte := frameBody s ++ [xor8 (frameBody s)]

/-- Wire byte `k` of a record: `r[8k+7:8k]` for `k` = 0 to 5, the masked status for `k` = 6 (R92). -/
def wireByte (r : ChRec) (k : Nat) : Byte :=
  if k < 6 then (packRec r).extractLsb' (8 * k) 8 else carriedStatus r.status

/-- `fbyte(s, i)` for `i` = 0 to 56, without the checksum (R131). Channel `(i-1) div 7` is taken modulo
8, which changes nothing for the offsets the rule gives it. -/
def fbyte (s : ChannelSet) (i : Nat) : Byte :=
  if i = 0 then HEADER else wireByte (s[Fin.ofNat 8 ((i - 1) / 7)]) ((i - 1) % 7)

/-- The byte at an offset of a buffer. -/
def byteAt (f : List Byte) (i : Nat) : Byte := f.getD i 0

/-- The record of the channel whose first byte is at offset `o` (R97, R164). -/
def parseRec (f : List Byte) (o : Nat) : ChRec :=
  { voltageMv := le16 (byteAt f o) (byteAt f (o + 1))
    currentMa := le16 (byteAt f (o + 2)) (byteAt f (o + 3))
    temperatureDecic := le16 (byteAt f (o + 4)) (byteAt f (o + 5))
    status := carriedStatus (byteAt f (o + 6)) }

/-- `parse(f)`: reads offsets 1 to 56 (R164). -/
def parse (f : List Byte) : ChannelSet := Vector.ofFn fun c => parseRec f (1 + 7 * c.val)

/-- The outcomes of `decode`: the set, or one of the three failures (R162, R163). -/
inductive DecodeResult where
  | ok (s : ChannelSet)
  | badLength
  | badHeader
  | checksumMismatch
  deriving DecidableEq, Repr

/-! ### Override specs -/

/-- A clear override register: all 60 bits 0 (R51). -/
def clearOv : OvSpec := ⟨0, 0, 0, 0, 0, 0⟩

/-- All eight override registers clear (R51). -/
def clearOvs : Vector OvSpec 8 := Vector.replicate 8 clearOv

/-- `OVSPEC` packing, 60 bits (R111). -/
def packOv (o : OvSpec) : BitVec 60 :=
  o.mask ++ o.voltageMv ++ o.currentMa ++ o.temperatureDecic ++ o.stSet ++ o.stClr

/-- The override spec a 60-bit value holds (R111). -/
def unpackOv (v : BitVec 60) : OvSpec :=
  { mask := v.extractLsb' 56 4
    voltageMv := v.extractLsb' 40 16
    currentMa := v.extractLsb' 24 16
    temperatureDecic := v.extractLsb' 8 16
    stSet := v.extractLsb' 4 4
    stClr := v.extractLsb' 0 4 }

/-- `ENTRY` packing, 96 bits, bit 63 reserved and 0; the text is not packed (R112). -/
def packEntry (e : Entry) : BitVec 96 :=
  e.offsetMs ++ (0 : BitVec 1) ++ BitVec.ofNat 3 e.channel.val ++ packOv e.spec

/-- The entry a 96-bit value and a text hold; bit 63 is ignored (R112, R121). -/
def unpackEntry (v : BitVec 96) (text : String) : Entry :=
  { offsetMs := v.extractLsb' 64 32
    channel := Fin.ofNat 8 (v.extractLsb' 60 3).toNat
    spec := unpackOv (v.extractLsb' 0 60)
    eventText := text }

/-- `ov_merge(old, spec)` (R203). -/
def ovMerge (old spec : OvSpec) : OvSpec :=
  { mask := old.mask ||| spec.mask
    voltageMv := if spec.mask.getLsbD 0 then spec.voltageMv else old.voltageMv
    currentMa := if spec.mask.getLsbD 1 then spec.currentMa else old.currentMa
    temperatureDecic := if spec.mask.getLsbD 2 then spec.temperatureDecic else old.temperatureDecic
    stSet := if spec.mask.getLsbD 3 then spec.stSet else old.stSet
    stClr := if spec.mask.getLsbD 3 then spec.stClr else old.stClr }

/-- One channel of OV_APPLY: the override `o` on the nominal record `r` (R232). -/
def applyRec (o : OvSpec) (r : ChRec) : ChRec :=
  { voltageMv := if o.mask.getLsbD 0 then o.voltageMv else r.voltageMv
    currentMa := if o.mask.getLsbD 1 then o.currentMa else r.currentMa
    temperatureDecic := if o.mask.getLsbD 2 then o.temperatureDecic else r.temperatureDecic
    status :=
      if o.mask.getLsbD 3 then (r.status &&& ~~~(o.stClr.setWidth 8)) ||| o.stSet.setWidth 8
      else r.status }

/-- The set OV_APPLY answers: each channel through its override register (R232). -/
def applyOvs (ov : Vector OvSpec 8) (nom : ChannelSet) : ChannelSet :=
  Vector.ofFn fun c => applyRec ov[c] nom[c]

/-- The pairs `(c, ov[c])` of the channels under an override, in channel order (R231). -/
def activeOverrides (ov : Vector OvSpec 8) : List (Fin 8 × OvSpec) :=
  (List.finRange 8).filterMap fun c => if ov[c].mask = 0 then none else some (c, ov[c])

end Sys2Proof.Machine
end

