-- ==== Sys2Proof/Decode.lean ====
section
/-! DEFINITION. The decoder: from the raw values on the input ports to an operation, by the code tables
of 30_encoding.md R115 to R119. Every 2-bit code of every command port is assigned (R121), so a command
port always decodes; the two requests that are no operation are rejected by name. After it the encoder,
and the operation a table word stands for. -/

namespace Sys2Proof

/-- Why a request is no operation. -/
inductive DecodeError where
  /-- `rst` driven at 0 is no RESET (R119): the step gives no unit a command (log 5). -/
  | rstLow
  /-- RX_BYTES with no byte (R124): its expansion is empty (log 5). -/
  | noBytes
  deriving DecidableEq, Repr

/-- `enc_cmd`, with `enc_din` read only by ENC_LOAD (R115, U18). -/
def decodeEncCmd (cmd : BitVec 2) (din : SetLanes) : Instr :=
  match cmd.toNat with
  | 0 => .encNop
  | 1 => .encLoad (Machine.unpackLanes din)
  | 2 => .encEmit
  | _ => .encRsv

/-- `rx_cmd`, with `rx_data` read only by RX_BYTE and `rx_dt_ms` only by RX_TIME (R116, U18). -/
def decodeRxCmd (cmd : BitVec 2) (data : Byte) (dt : U32) : Instr :=
  match cmd.toNat with
  | 0 => .rxNop
  | 1 => .rxByte data
  | 2 => .rxTime dt
  | _ => .rxRsv

/-- `sc_cmd`, with `sc_id` read only by SC_TRIGGER and `sc_dt_ms` only by SC_TICK (R117, U18). -/
def decodeScCmd (cmd : BitVec 2) (id : BitVec 8) (dt : U32) : Instr :=
  match cmd.toNat with
  | 0 => .scNop
  | 1 => .scTrigger id
  | 2 => .scTick dt
  | _ => .scRsv

/-- The operation a request asks for, or the name of what is wrong with it. -/
def decode (r : Request) : Except DecodeError Instr :=
  match r with
  | .rst b => if b = 1#1 then .ok .reset else .error .rstLow
  | .encCmd cmd din => .ok (decodeEncCmd cmd din)
  | .rxCmd cmd data dt => .ok (decodeRxCmd cmd data dt)
  | .scCmd cmd id dt => .ok (decodeScCmd cmd id dt)
  | .readSnap => .ok .snapRead
  | .readStatus => .ok .scStatus
  | .readOv => .ok .ovRead
  | .readEff nomIn => .ok (.ovApply (Machine.unpackLanes nomIn))
  | .pseudoEncode din => .ok (.encode (Machine.unpackLanes din))
  | .pseudoRxBytes [] => .error .noBytes
  | .pseudoRxBytes (b :: bs) => .ok (.rxBytes (b :: bs))
  | .pseudoDecode buf => .ok (.decode buf)
  | .pseudoScTicks n dt => .ok (.scTicks n dt)
  | .pseudoProduce dt nomIn => .ok (.produce dt (Machine.unpackLanes nomIn))

/-- All lanes of a set port at 0: what a command that does not use the port is presented with here. -/
def zeroLanes : SetLanes := Vector.replicate 8 0#56

/-- The port values of an operation, from the same tables; unused operand ports at 0. -/
def encode (i : Instr) : Request :=
  match i with
  | .encNop => .encCmd 0 zeroLanes
  | .encLoad set => .encCmd 1 (Machine.packLanes set)
  | .encEmit => .encCmd 2 zeroLanes
  | .encRsv => .encCmd 3 zeroLanes
  | .rxNop => .rxCmd 0 0 0
  | .rxByte b => .rxCmd 1 b 0
  | .rxTime dt => .rxCmd 2 0 dt
  | .rxRsv => .rxCmd 3 0 0
  | .scNop => .scCmd 0 0 0
  | .scTrigger id => .scCmd 1 id 0
  | .scTick dt => .scCmd 2 0 dt
  | .scRsv => .scCmd 3 0 0
  | .reset => .rst 1
  | .snapRead => .readSnap
  | .scStatus => .readStatus
  | .ovRead => .readOv
  | .ovApply nom => .readEff (Machine.packLanes nom)
  | .encode set => .pseudoEncode (Machine.packLanes set)
  | .rxBytes bs => .pseudoRxBytes bs
  | .decode buf => .pseudoDecode buf
  | .scTicks n dt => .pseudoScTicks n dt
  | .produce dt nom => .pseudoProduce dt (Machine.packLanes nom)

/-- The ENC port image of a word: `enc_cmd` in bits 1:0, lane `c` of `enc_din` in bits
`56*c+57 : 56*c+2` (DESIGN CHOICE, log 3). Bits at and above `nbits` are 0. -/
def tableRequest (nbits w : Nat) : Request :=
  .encCmd (BitVec.ofNat 2 (w % 2 ^ nbits))
    (Vector.ofFn fun c => BitVec.ofNat 56 ((w % 2 ^ nbits) >>> (56 * c.val + 2)))

/-- The operation the decoder reads from a table word. The rows of the three command ports and of RST
share the same few bits, since the port is no part of the word; a word is read on the ENC port (log 3). -/
def decodeTableWord (nbits w : Nat) : Option Instr :=
  match decode (tableRequest nbits w) with
  | .ok i => some i
  | .error _ => none

end Sys2Proof
end

