-- ==== Sys2Proof/Machine/Flags.lean ====
section
/-! DEFINITION. The flags and tests of the block: the validity predicates behind `enc_range_warn`, the
header and checksum tests, `decode`, and the liveness test. -/

namespace Sys2Proof.Machine

/-- `valid_rec(r)` (30_encoding.md R96). -/
def validRec (r : ChRec) : Bool :=
  decide (r.voltageMv.toNat ≤ V_MAX) && decide (r.currentMa.toNat ≤ I_MAX)
    && decide (T_MIN ≤ asi16 r.temperatureDecic) && decide (asi16 r.temperatureDecic ≤ T_MAX)
    && (r.status &&& ST_RSVD == 0)

/-- `valid_set(s)` (R96). -/
def validSet (s : ChannelSet) : Bool := s.toList.all validRec

/-- What an accepted ENC_LOAD writes to `enc_range_warn` (10_state.md R31). -/
def rangeWarn (s : ChannelSet) : Bool := !validSet s

/-- `hdr_ok(w)` (41_frame_decoder.md R161; 30_encoding.md R100). -/
def hdrOk (w : List Byte) : Bool := byteAt w 0 == HEADER

/-- `ck_ok(w)`: the byte at offset 57 is the exclusive-or of offsets 0 to 56 (R161, R99). -/
def ckOk (w : List Byte) : Bool := xor8 (w.take CK_OFF) == byteAt w CK_OFF

/-- `decode(buf)`: length before header before checksum (R162). -/
def decodeFrame (buf : List Byte) : DecodeResult :=
  if buf.length ≠ FRAME_LEN then .badLength
  else if !hdrOk buf then .badHeader
  else if !ckOk buf then .checksumMismatch
  else .ok (parse buf)

/-- The liveness test of RX_TIME on the new silence: strict (R176, 90_conflicts.md C3). -/
def timedOut (timeout silence : U32) : Bool := decide (timeout.toNat < silence.toNat)

end Sys2Proof.Machine
end

