-- ==== Sys2Proof/Machine/Scenarios.lean ====
section
/-! DEFINITION. The scenario table: the default table (42_scenario_state_machine.md R240 to R242), the
default parameters (00_scope.md R7), well-formedness (30_encoding.md R113) and the reads of the table. -/

namespace Sys2Proof.Machine

/-- `SCN_ROM[0]`, "Cooling Fan Failure" (R240). -/
def coolingFanFailure : Scenario :=
  { name := "Cooling Fan Failure"
    description := "Cooling fan current ramps to zero, then the channel reports over-temperature."
    durationMs := 5000
    entries :=
      [{ offsetMs := 1000, channel := 3, spec := ⟨0x2, 0, 6000, 0, 0, 0⟩
         eventText := "Cooling fan current falling" },
       { offsetMs := 2000, channel := 3, spec := ⟨0x2, 0, 3000, 0, 0, 0⟩
         eventText := "Cooling fan current low" },
       { offsetMs := 3000, channel := 3, spec := ⟨0x2, 0, 0, 0, 0, 0⟩
         eventText := "Cooling fan stopped" },
       { offsetMs := 4000, channel := 3, spec := ⟨0xC, 0, 0, asu16 1100, 0x8, 0⟩
         eventText := "Cooling fan channel over temperature" }] }

/-- `SCN_ROM[1]`, "Engine Start Sequence" (R241). -/
def engineStartSequence : Scenario :=
  { name := "Engine Start Sequence"
    description := "Fuel pump primes, ignition switches on, the starter draws a brief high current, then all three settle."
    durationMs := 4000
    entries :=
      [{ offsetMs := 0, channel := 2, spec := ⟨0xA, 0, 4500, 0, 0x1, 0⟩
         eventText := "Fuel pump priming" },
       { offsetMs := 500, channel := 1, spec := ⟨0xA, 0, 2500, 0, 0x1, 0⟩
         eventText := "Ignition on" },
       { offsetMs := 1000, channel := 0, spec := ⟨0xB, 10500, 45000, 0, 0x1, 0⟩
         eventText := "Starter cranking" },
       { offsetMs := 2000, channel := 0, spec := ⟨0xB, 0, 0, 0, 0, 0x1⟩
         eventText := "Starter released" },
       { offsetMs := 2500, channel := 2, spec := ⟨0x2, 0, 3500, 0, 0, 0⟩
         eventText := "Fuel pump at running pressure" },
       { offsetMs := 3000, channel := 1, spec := ⟨0x2, 0, 1500, 0, 0, 0⟩
         eventText := "Ignition settled" }] }

/-- The default parameters (R7). -/
def defaultConfig : Config :=
  { packetIntervalMs := 100
    linkTimeoutMs := 300
    settleMs := 2000
    maxEntries := 16
    rom := [coolingFanFailure, engineStartSequence] }

/-- WF1 of R113: a timeline has at most `MAX_ENTRIES` entries. -/
def entriesFit (maxEntries : Nat) (x : Scenario) : Bool := decide (x.entries.length ≤ maxEntries)

/-- What the invariants of R57 ask of a build: `N_SCN` at most 255 (R7), every timeline at most
`MAX_ENTRIES` long (WF1 of R113, R110), and every index of an entry within the 8 bits of `cur_event`
(DEDUCED from R49, log 7). -/
def legalConfig (cfg : Config) : Bool :=
  decide (cfg.nScn ≤ 255)
    && cfg.rom.all fun x => entriesFit cfg.maxEntries x && decide (x.entries.length ≤ 256)

/-- WF2 of R113: every selected field is in its valid range. -/
def ovInRange (o : OvSpec) : Bool :=
  (!o.mask.getLsbD 0 || decide (o.voltageMv.toNat ≤ V_MAX))
    && (!o.mask.getLsbD 1 || decide (o.currentMa.toNat ≤ I_MAX))
    && (!o.mask.getLsbD 2
        || (decide (T_MIN ≤ asi16 o.temperatureDecic) && decide (asi16 o.temperatureDecic ≤ T_MAX)))

/-- WF5 of R113: the fields the mask does not select are 0. -/
def ovUnselectedZero (o : OvSpec) : Bool :=
  (o.mask.getLsbD 0 || o.voltageMv == 0) && (o.mask.getLsbD 1 || o.currentMa == 0)
    && (o.mask.getLsbD 2 || o.temperatureDecic == 0)
    && (o.mask.getLsbD 3 || (o.stSet == 0 && o.stClr == 0))

/-- WF3 of R113: `offset_ms` is non-decreasing along the entries. -/
def offsetsOrdered : List Entry → Bool
  | [] => true
  | e :: rest => rest.all (fun f => decide (e.offsetMs.toNat ≤ f.offsetMs.toNat)) && offsetsOrdered rest

/-- WF2 to WF5 of R113 for one scenario. -/
def wellFormedScenario (x : Scenario) : Bool :=
  offsetsOrdered x.entries
    && x.entries.all fun e =>
        ovInRange e.spec && ovUnselectedZero e.spec && decide (e.offsetMs.toNat ≤ x.durationMs.toNat)

/-- A well-formed table, WF1 to WF5 of R113, for every scenario. -/
def wellFormedTable (cfg : Config) : Bool :=
  cfg.rom.all fun x => entriesFit cfg.maxEntries x && wellFormedScenario x

/-- The scenario with no name, no time and no entry: what an id that names none reads as. -/
def emptyScenario : Scenario := ⟨"", "", 0, []⟩

/-- `tl = SCN_ROM[id]` (R202, 20_memory.md R63). The rules read it only for an id below `N_SCN`; for
another id, in states no run reaches, the model reads the empty scenario (DESIGN CHOICE, log 8). -/
def timeline (cfg : Config) (id : BitVec 8) : Scenario := cfg.rom.getD id.toNat emptyScenario

/-- The scenario's name, empty for `NONE` (R230). -/
def scenarioName (cfg : Config) (id : BitVec 8) : String :=
  if id = NONE then "" else (timeline cfg id).name

/-- The scenario's description, empty for `NONE` (R230). -/
def scenarioDescription (cfg : Config) (id : BitVec 8) : String :=
  if id = NONE then "" else (timeline cfg id).description

/-- The text of an entry of a scenario, empty for `NONE` (R230). -/
def eventText (cfg : Config) (id ev : BitVec 8) : String :=
  if ev = NONE then "" else ((timeline cfg id).entries[ev.toNat]?.map Entry.eventText).getD ""

end Sys2Proof.Machine
end

