-- ==== Sys2Proof/Machine/State.lean ====
section
/-! DEFINITION. The state of the block as plain data: the registers of ENC, DEC and SCN
(10_state.md R26 to R51), the result ports of each unit (30_encoding.md R115 to R117), the two byte
streams (20_memory.md R61), the build's parameters (00_scope.md R7), and two fields of the model's own:
the operations presented and what the last one answered. -/

namespace Sys2Proof.Machine

/-- Why the machine would stop with a fault: never. Nothing in the block is a fault and no state is a
fault state (60_exceptions.md R273), so the type has no constructor and nothing can raise one (log 19).
Safe. -/
inductive Fault where
  deriving DecidableEq, Repr

/-- Why a step has no meaning: never, since every operation has one and a request that asks for none has
its effect too (R273, log 5). -/
inductive Refusal where
  /-- Raised by exec's arm of an operation that has no meaning yet; no arm raises it. Safe: nothing runs. -/
  | notModelled (mnemonic : String)
  deriving DecidableEq, Repr

/-- The registers of ENC (R26 to R31). -/
structure Enc where
  /-- `enc_set`, 8 x 56 bits (R26) -/
  encSet : ChannelSet
  /-- `enc_busy`, 1 bit (R27) -/
  encBusy : Bool
  /-- `enc_idx`, values 0 to 57 (R28; log 16) -/
  encIdx : Fin 58
  /-- `enc_xor`, 8 bits (R29) -/
  encXor : Byte
  /-- `enc_range_warn`, 1 bit (R31) -/
  encRangeWarn : Bool
  deriving DecidableEq, Repr

/-- The result ports of ENC (R115): what its last command answered. -/
structure EncOut where
  /-- `enc_ack` -/
  encAck : Bool
  /-- `tx_valid` -/
  txValid : Bool
  /-- `tx_data` -/
  txData : Byte
  deriving DecidableEq, Repr

/-- `link_status` (R39): 0 = Disconnected, 1 = Connected. -/
inductive LinkStatus where
  | disconnected
  | connected
  deriving DecidableEq, Repr

/-- The registers of DEC (R35 to R42). -/
structure Dec where
  /-- `rx_win[0..57]` (R35) -/
  rxWin : Vector Byte 58
  /-- `rx_cnt`, values 0 to 57 (R36; log 16) -/
  rxCnt : Fin 58
  /-- `snap[0..7]`, 8 x 56 bits (R37) -/
  snap : ChannelSet
  /-- `snap_valid`, 1 bit (R38) -/
  snapValid : Bool
  /-- `link_status`, 1 bit (R39) -/
  linkStatus : LinkStatus
  /-- `silence_ms`, 32 bits, saturating (R40) -/
  silenceMs : U32
  /-- `rx_clock_ms`, 32 bits, wrapping (R41) -/
  rxClockMs : U32
  /-- `snap_time_ms`, 32 bits (R42) -/
  snapTimeMs : U32
  deriving DecidableEq, Repr

/-- `rx_result` (R116, R122): 0 Accepted, 1 BadHeader, 2 Pending, 3 ChecksumMismatch. -/
inductive RxResult where
  | accepted
  | badHeader
  | pending
  | checksumMismatch
  deriving DecidableEq, Repr

/-- `scn_status` (R45): 0 idle, 1 active, 2 complete; 3 is not a state. -/
inductive ScnStatus where
  | idle
  | active
  | complete
  deriving DecidableEq, Repr

/-- The registers of SCN (R45 to R51). -/
structure Scn where
  /-- `scn_status`, 2 bits (R45) -/
  scnStatus : ScnStatus
  /-- `scn_id`, 8 bits (R46) -/
  scnId : BitVec 8
  /-- `elapsed_ms`, 32 bits, saturating (R47) -/
  elapsedMs : U32
  /-- `fired`, `MAX_ENTRIES` bits, `fired[i]` at position `i` (R48; log 9) -/
  fired : List Bool
  /-- `cur_event`, 8 bits (R49) -/
  curEvent : BitVec 8
  /-- `settle_ms`, 32 bits, saturating (R50) -/
  settleMs : U32
  /-- `ov[0..7]`, 8 x 60 bits (R51) -/
  ov : Vector OvSpec 8
  deriving DecidableEq, Repr

/-- `trig_reason` (R122): 0 none, 1 AlreadyActive, 2 UnknownScenarioId; 3 is never produced. -/
inductive TrigReason where
  | noReason
  | alreadyActive
  | unknownScenarioId
  deriving DecidableEq, Repr

/-- The result ports of SCN (R117). -/
structure TrigOut where
  /-- `trig_accepted` -/
  trigAccepted : Bool
  /-- `trig_reason` -/
  trigReason : TrigReason
  deriving DecidableEq, Repr

/-- What SNAP_READ answers, all from one state (R180). -/
structure SnapView where
  valid : Bool
  link : LinkStatus
  t : U32
  set : ChannelSet
  /-- `Vsys`, `system_voltage_mv` of the set (R25) -/
  vsys : Nat
  /-- `Itot`, `total_current_ma` of the set (R24) -/
  itot : Nat
  deriving DecidableEq, Repr

/-- What SC_STATUS answers, all from one state (R230): the four registers and the texts the reader looks
up with them. -/
structure StatusView where
  status : ScnStatus
  id : BitVec 8
  elapsed : U32
  event : BitVec 8
  name : String
  description : String
  currentEvent : String
  deriving DecidableEq, Repr

/-- What an operation answers its caller: the part of a trace line after `=>` (R123, R124). The model's
own record (log 11). -/
inductive Result where
  /-- an operation with no result -/
  | silent
  /-- ENC_LOAD: `ack=1` or `ack=0` -/
  | ack (loaded : Bool)
  /-- ENC_EMIT: `tx=<byte>`, or `idle` -/
  | tx (byte : Option Byte)
  /-- RX_BYTE -/
  | rx (r : RxResult)
  /-- SNAP_READ -/
  | snapshot (v : SnapView)
  /-- SC_TRIGGER: accepted or rejected with its reason -/
  | trig (t : TrigOut)
  /-- SC_STATUS -/
  | status (v : StatusView)
  /-- OV_READ -/
  | overrides (l : List (Fin 8 × OvSpec))
  /-- OV_APPLY -/
  | eff (s : ChannelSet)
  /-- ENCODE and PRODUCE: the bytes emitted -/
  | emitted (l : List Byte)
  /-- RX_BYTES: the list of results -/
  | rxs (l : List RxResult)
  /-- DECODE -/
  | decoded (d : DecodeResult)
  deriving DecidableEq, Repr

/-- The state of the machine. -/
structure State where
  /-- the build's parameters (R7); no operation writes them (R56, R301; log 6) -/
  cfg : Config
  enc : Enc
  encOut : EncOut
  dec : Dec
  /-- `rx_result` (R116) -/
  rxResult : RxResult
  scn : Scn
  trig : TrigOut
  /-- the tx stream: every byte ENC has emitted, in order (R61; log 12) -/
  txStream : List Byte
  /-- the rx stream: every byte presented to DEC since reset, in order (R61; log 12) -/
  rxStream : List Byte
  /-- what the last operation answered (log 11) -/
  result : Result
  /-- the operations presented and not yet performed, oldest first (log 1) -/
  pending : List Request
  deriving DecidableEq, Repr

/-- ENC at reset (R26 to R31, R300). -/
def Enc.reset : Enc :=
  { encSet := zeroSet, encBusy := false, encIdx := 0, encXor := 0x00#8, encRangeWarn := false }

/-- The result ports of ENC when no load and no byte is to be reported (R115, R300). -/
def EncOut.quiet : EncOut := { encAck := false, txValid := false, txData := 0x00#8 }

/-- DEC at reset (R35 to R42, R300). -/
def Dec.reset : Dec :=
  { rxWin := Vector.replicate 58 0x00#8
    rxCnt := 0
    snap := zeroSet
    snapValid := false
    linkStatus := .disconnected
    silenceMs := 0
    rxClockMs := 0
    snapTimeMs := 0 }

/-- SCN at reset, which is also the one canonical idle state (R45 to R51, R300, D22). -/
def Scn.reset (maxEntries : Nat) : Scn :=
  { scnStatus := .idle
    scnId := NONE
    elapsedMs := 0
    fired := List.replicate maxEntries false
    curEvent := NONE
    settleMs := 0
    ov := clearOvs }

/-- The result ports of SCN when no trigger is to be reported (R117, R300). -/
def TrigOut.quiet : TrigOut := { trigAccepted := false, trigReason := .noReason }

/-- The machine of a build right after reset, with nothing presented yet. -/
def State.resetOf (cfg : Config) : State :=
  { cfg := cfg
    enc := Enc.reset
    encOut := EncOut.quiet
    dec := Dec.reset
    rxResult := .pending
    scn := Scn.reset cfg.maxEntries
    trig := TrigOut.quiet
    txStream := []
    rxStream := []
    result := .silent
    pending := [] }

/-- The machine right after reset, with the default parameters (R7, R300). -/
def State.reset : State := State.resetOf defaultConfig

end Sys2Proof.Machine
end

