-- ==== Sys2Proof/Machine/Ops.lean ====
section
/-! DEFINITION. The operations the meanings share: the updates of State, one byte read of a byte space,
and the transitions of each unit. There is no exception entry and no return from one in this block
(60_exceptions.md R270, R272): a failure is a typed result on the unit's result port. -/

namespace Sys2Proof.Machine

/-! ### Updates of the state -/

/-- The registers and the result ports of ENC become `e` and `o`. -/
def State.setEnc (s : State) (e : Enc) (o : EncOut) : State := { s with enc := e, encOut := o }

/-- The registers and the result port of DEC become `d` and `r`. -/
def State.setDec (s : State) (d : Dec) (r : RxResult) : State := { s with dec := d, rxResult := r }

/-- The registers and the result ports of SCN become `c` and `t`. -/
def State.setScn (s : State) (c : Scn) (t : TrigOut) : State := { s with scn := c, trig := t }

/-- The byte `b` is appended to the tx stream (R61, R135). -/
def State.appendTx (s : State) (b : Byte) : State := { s with txStream := s.txStream ++ [b] }

/-- The byte `b` is appended to the rx stream (R61). -/
def State.appendRx (s : State) (b : Byte) : State := { s with rxStream := s.rxStream ++ [b] }

/-- The operation answers `r`. -/
def State.answer (s : State) (r : Result) : State := { s with result := r }

/-! ### Byte spaces -/

/-- The byte spaces with offsets, FRAME (R60) and WIN (R62). -/
inductive ByteSpace where
  | frame
  | win
  deriving DecidableEq, Repr

/-- The 58 bytes of a space: FRAME is the frame of `enc_set` (R60), WIN the register file `rx_win`. -/
def spaceBytes (sp : ByteSpace) (s : State) : List Byte :=
  match sp with
  | .frame => frame s.enc.encSet
  | .win => s.dec.rxWin.toList

/-- `MemRead(space, addr, n)` (R10). -/
def memRead (sp : ByteSpace) (addr n : Nat) (s : State) : List Byte :=
  ((spaceBytes sp s).drop addr).take n

/-- One byte of a space; `none` for an offset that does not exist, above 57 (R60, R62). -/
def State.readByte (s : State) (sp : ByteSpace) (addr : Nat) : Option Byte := (spaceBytes sp s)[addr]?

/-- The cursor: the rx-stream position of `rx_win[0]` (R61). -/
def cursor (s : State) : Nat := s.rxStream.length - s.dec.rxCnt.val

/-! ### ENC -/

/-- ENC after an accepted load (R134). -/
def loadedEnc (set : ChannelSet) : Enc :=
  { encSet := set, encBusy := true, encIdx := 0, encXor := 0x00#8, encRangeWarn := rangeWarn set }

/-- The byte a busy ENC emits next: a header or record byte (R135), or the checksum (R136). -/
def nextTxByte (e : Enc) : Byte :=
  if e.encIdx.val < CK_OFF then fbyte e.encSet e.encIdx.val else e.encXor

/-- A busy ENC after it emitted a byte (R135, R136). -/
def emittedEnc (e : Enc) : Enc :=
  if e.encIdx.val < CK_OFF then
    { e with
      encXor := e.encXor ^^^ fbyte e.encSet e.encIdx.val
      encIdx := Fin.ofNat 58 (e.encIdx.val + 1) }
  else
    { e with encBusy := false, encIdx := 0, encXor := 0x00#8 }

/-- No ENC result to report, nothing else changes (R138). -/
def encIdle (s : State) : State := s.setEnc s.enc EncOut.quiet

/-- ENC_LOAD on the state (R134): loaded, or refused while busy. -/
def loadSet (set : ChannelSet) (s : State) : State :=
  if s.enc.encBusy then (s.setEnc s.enc EncOut.quiet).answer (.ack false)
  else (s.setEnc (loadedEnc set) { EncOut.quiet with encAck := true }).answer (.ack true)

/-- ENC_EMIT on the state (R135, R136): idle, or one byte. -/
def emitByte (s : State) : State :=
  if s.enc.encBusy then
    ((s.setEnc (emittedEnc s.enc)
        { encAck := false, txValid := true, txData := nextTxByte s.enc }).appendTx
      (nextTxByte s.enc)).answer (.tx (some (nextTxByte s.enc)))
  else (s.setEnc s.enc EncOut.quiet).answer (.tx none)

/-- `n` ENC_EMIT in a row, and the bytes they emitted, in order. -/
def emitBytes : Nat → State → List Byte × State
  | 0, s => ([], s)
  | n + 1, s =>
    let s' := emitByte s
    let rest := emitBytes n s'
    ((if s'.encOut.txValid then [s'.encOut.txData] else []) ++ rest.1, rest.2)

/-- ENCODE on the state (R124, R137): the load, and when it is accepted 58 ENC_EMIT. A load that is
refused ends it with nothing emitted (DESIGN CHOICE, log 14). -/
def encodeSet (set : ChannelSet) (s : State) : State :=
  let s' := loadSet set s
  if s'.encOut.encAck then
    let out := emitBytes FRAME_LEN s'
    out.2.answer (.emitted out.1)
  else s'

/-! ### DEC -/

/-- The window with the new byte: `rx_win[0 .. rx_cnt-1] ++ [b]` (R170). -/
def windowWith (d : Dec) (b : Byte) : List Byte := d.rxWin.toList.take d.rxCnt.val ++ [b]

/-- `rx_win[rx_cnt] <- b` (R170). -/
def storeByte (d : Dec) (b : Byte) : Dec :=
  { d with rxWin := d.rxWin.set d.rxCnt.val b d.rxCnt.isLt }

/-- Case Pending: the byte is kept, the cursor stays (R172). -/
def pendDec (d : Dec) (b : Byte) : Dec :=
  { storeByte d b with rxCnt := Fin.ofNat 58 (d.rxCnt.val + 1) }

/-- Case Accepted: the snapshot cell is written whole (R173). -/
def acceptDec (d : Dec) (b : Byte) (set : ChannelSet) : Dec :=
  { storeByte d b with
    snap := set
    snapValid := true
    snapTimeMs := d.rxClockMs
    linkStatus := .connected
    silenceMs := 0
    rxCnt := 0 }

/-- Case BadHeader or ChecksumMismatch: the byte at the cursor is dropped, the other 57 move down one
place; offset 57 keeps the new byte (R174, log 24). -/
def failDec (d : Dec) (b : Byte) : Dec :=
  { storeByte d b with
    rxWin := Vector.ofFn fun i =>
      if i.val < 57 then byteAt (windowWith d b) (i.val + 1) else (storeByte d b).rxWin[i]
    rxCnt := 57 }

/-- RX_BYTE on the registers of DEC, with its result (R170). -/
def receive (d : Dec) (b : Byte) : Dec × RxResult :=
  match decodeFrame (windowWith d b) with
  | .badLength => (pendDec d b, .pending)
  | .ok set => (acceptDec d b set, .accepted)
  | .badHeader => (failDec d b, .badHeader)
  | .checksumMismatch => (failDec d b, .checksumMismatch)

/-- RX_TIME on the registers of DEC (R176). -/
def passTime (timeout : U32) (d : Dec) (dt : U32) : Dec :=
  { d with
    rxClockMs := d.rxClockMs + dt
    silenceMs := satAdd32 d.silenceMs dt
    linkStatus :=
      if timedOut timeout (satAdd32 d.silenceMs dt) then .disconnected else d.linkStatus }

/-- No RX_BYTE result to report: `rx_result` = 2, nothing else changes (R178). -/
def rxIdle (s : State) : State := s.setDec s.dec .pending

/-- RX_BYTE on the state (R170). -/
def receiveByte (b : Byte) (s : State) : State :=
  ((s.setDec (receive s.dec b).1 (receive s.dec b).2).appendRx b).answer (.rx (receive s.dec b).2)

/-- RX_BYTE of each byte in order, and the results (R124). -/
def receiveBytes : List Byte → State → List RxResult × State
  | [], s => ([], s)
  | b :: bs, s =>
    let s' := receiveByte b s
    let rest := receiveBytes bs s'
    (s'.rxResult :: rest.1, rest.2)

/-- RX_TIME on the state (R176). -/
def passRxTime (dt : U32) (s : State) : State :=
  s.setDec (passTime s.cfg.linkTimeoutMs s.dec dt) .pending

/-- What SNAP_READ answers (R180). -/
def snapView (d : Dec) : SnapView :=
  { valid := d.snapValid
    link := d.linkStatus
    t := d.snapTimeMs
    set := d.snap
    vsys := systemVoltageMv d.snap
    itot := totalCurrentMa d.snap }

/-! ### SCN -/

/-- The working copies of SC_TICK's loop (R222). -/
structure Firing where
  ov : Vector OvSpec 8
  fired : List Bool
  curEvent : BitVec 8
  deriving DecidableEq, Repr

/-- Whether entry `i` fires at `now`: not fired in this run, and due (R222). -/
def isDue (now : U32) (i : Nat) (e : Entry) (fired : List Bool) : Bool :=
  !fired.getD i false && decide (e.offsetMs.toNat ≤ now.toNat)

/-- `cur_event` after the entry of index `i` fired (R49, R222): the index, and a free value where it does
not fit in 8 bits (log 27). -/
def eventIndex (i : Nat) : BitVec 8 := if i < 256 then BitVec.ofNat 8 i else Config.wideEvent i

/-- One turn of the loop: entry `i` fires when it is due (R222). -/
def fireEntry (now : U32) (i : Nat) (e : Entry) (w : Firing) : Firing :=
  if isDue now i e w.fired then
    { ov := w.ov.set e.channel.val (ovMerge w.ov[e.channel] e.spec) e.channel.isLt
      fired := w.fired.set i true
      curEvent := eventIndex i }
  else w

/-- The loop over the entries from index `i` on, in index order (R222). -/
def fireFrom (now : U32) : Nat → List Entry → Firing → Firing
  | _, [], w => w
  | i, e :: rest, w => fireFrom now (i + 1) rest (fireEntry now i e w)

/-- The loop of a tick over the whole timeline (R222). -/
def fireAll (tl : Scenario) (now : U32) (c : Scn) : Firing :=
  fireFrom now 0 tl.entries { ov := c.ov, fired := c.fired, curEvent := c.curEvent }

/-- SC_TICK in active (R222): advance, fire in index order, then test for completion. -/
def tickActive (tl : Scenario) (c : Scn) (dt : U32) : Scn :=
  let now := satAdd32 c.elapsedMs dt
  let w := fireAll tl now c
  if tl.durationMs.toNat ≤ now.toNat then
    { c with
      scnStatus := .complete
      elapsedMs := now
      fired := w.fired
      curEvent := w.curEvent
      settleMs := 0
      ov := clearOvs }
  else
    { c with elapsedMs := now, fired := w.fired, curEvent := w.curEvent, ov := w.ov }

/-- SC_TICK in complete (R224): the settle delay, then idle. -/
def tickComplete (cfg : Config) (c : Scn) (dt : U32) : Scn :=
  if cfg.settleMs.toNat ≤ (satAdd32 c.settleMs dt).toNat then
    { c with
      scnStatus := .idle
      scnId := NONE
      elapsedMs := 0
      fired := List.replicate cfg.maxEntries false
      curEvent := NONE
      settleMs := 0 }
  else { c with settleMs := satAdd32 c.settleMs dt }

/-- SC_TICK on the registers of SCN (R220, R221). -/
def tick (cfg : Config) (c : Scn) (dt : U32) : Scn :=
  match c.scnStatus with
  | .idle => c
  | .active => tickActive (timeline cfg c.scnId) c dt
  | .complete => tickComplete cfg c dt

/-- SCN after an accepted trigger (R210). -/
def startedScn (cfg : Config) (id : BitVec 8) : Scn :=
  { scnStatus := .active
    scnId := id
    elapsedMs := 0
    fired := List.replicate cfg.maxEntries false
    curEvent := NONE
    settleMs := 0
    ov := clearOvs }

/-- What SC_TRIGGER answers: `AlreadyActive` before `UnknownScenarioId` (R209, R267). -/
def triggerOut (cfg : Config) (c : Scn) (id : BitVec 8) : TrigOut :=
  if c.scnStatus = .active then { trigAccepted := false, trigReason := .alreadyActive }
  else if cfg.nScn ≤ id.toNat then { trigAccepted := false, trigReason := .unknownScenarioId }
  else { trigAccepted := true, trigReason := .noReason }

/-- No trigger result to report, nothing else changes (R226). -/
def scIdle (s : State) : State := s.setScn s.scn TrigOut.quiet

/-- SC_TRIGGER on the state (R209 to R211). -/
def triggerRun (id : BitVec 8) (s : State) : State :=
  let t := triggerOut s.cfg s.scn id
  (s.setScn (if t.trigAccepted then startedScn s.cfg id else s.scn) t).answer (.trig t)

/-- SC_TICK on the state (R220). -/
def tickRun (dt : U32) (s : State) : State := s.setScn (tick s.cfg s.scn dt) TrigOut.quiet

/-- SC_TICK dt, `n` times (R124). -/
def tickRuns : Nat → U32 → State → State
  | 0, _, s => s
  | n + 1, dt, s => tickRuns n dt (tickRun dt s)

/-- What SC_STATUS answers (R230). -/
def statusView (cfg : Config) (c : Scn) : StatusView :=
  { status := c.scnStatus
    id := c.scnId
    elapsed := c.elapsedMs
    event := c.curEvent
    name := scenarioName cfg c.scnId
    description := scenarioDescription cfg c.scnId
    currentEvent := eventText cfg c.scnId c.curEvent }

/-- `elapsed_seconds` of the status view, an exact rational (R230, R98). -/
def elapsedSeconds (v : StatusView) : Rat := seconds v.elapsed

/-! ### All units -/

/-- RESET on the state (R300): every register and every result port at its reset value. The parameters
stay (R301); the bytes already emitted stay emitted and the rx stream starts over (log 12); what is
still presented stays presented. -/
def resetBlock (s : State) : State :=
  { State.resetOf s.cfg with txStream := s.txStream, pending := s.pending }

end Sys2Proof.Machine
end

