-- ==== Sys2Proof/Machine/Common.lean ====
section
/-! DEFINITION. RESET, common to the three units (70_reset_and_hazards.md R300), and the pseudo-operations
of 30_encoding.md R124, each run as one operation of the model (DESIGN CHOICE, log 13). -/

namespace Sys2Proof.Machine

/-- RESET: every register takes its reset value, the result ports go quiet (R300). -/
def execReset (s : State) : Host.Outcome State Fault Refusal := .next (resetBlock s)

/-- ENCODE set: ENC_LOAD, which must be accepted, then 58 ENC_EMIT (R124, R137; log 14). -/
def execEncode (set : ChannelSet) (s : State) : Host.Outcome State Fault Refusal :=
  .next (encodeSet set s)

/-- RX_BYTES b0 ... bn: RX_BYTE of each byte in order, answering the list of results (R124). -/
def execRxBytes (bs : List Byte) (s : State) : Host.Outcome State Fault Refusal :=
  .next ((receiveBytes bs s).2.answer (.rxs (receiveBytes bs s).1))

/-- DECODE bytes: the pure function `decode` on a list of any length; reads and writes no register
(R124, R162). -/
def execDecode (buf : List Byte) (s : State) : Host.Outcome State Fault Refusal :=
  .next (s.answer (.decoded (decodeFrame buf)))

/-- SC_TICKS n dt: SC_TICK dt, n times (R124). -/
def execScTicks (n : Nat) (dt : U32) (s : State) : Host.Outcome State Fault Refusal :=
  .next ((tickRuns n dt s).answer .silent)

/-- PRODUCE dt nominal: SC_TICK dt, OV_APPLY nominal giving e, ENCODE e (R124, R320; log 14). -/
def execProduce (dt : U32) (nom : ChannelSet) (s : State) : Host.Outcome State Fault Refusal :=
  .next (encodeSet (applyOvs (tickRun dt s).scn.ov nom) (tickRun dt s))

end Sys2Proof.Machine
end

