-- ==== Sys2Proof/Machine/Decoder.lean ====
section
/-! DEFINITION. The operations of DEC and the read of its snapshot cell (41_frame_decoder.md). -/

namespace Sys2Proof.Machine

/-- RX_NOP: no state change; `rx_result` = 2 (R178). -/
def execRxNop (s : State) : Host.Outcome State Fault Refusal := .next ((rxIdle s).answer .silent)

/-- RX_BYTE: take one byte of the rx stream (R170, R172 to R174). -/
def execRxByte (b : Byte) (s : State) : Host.Outcome State Fault Refusal := .next (receiveByte b s)

/-- RX_TIME: let time pass on the consumer side (R176). -/
def execRxTime (dt : U32) (s : State) : Host.Outcome State Fault Refusal :=
  .next ((passRxTime dt s).answer .silent)

/-- RX_RSV: the reserved code 3 behaves exactly as RX_NOP (R179). -/
def execRxRsv (s : State) : Host.Outcome State Fault Refusal := .next ((rxIdle s).answer .silent)

/-- SNAP_READ: the snapshot cell, all from one state; no state change (R180). -/
def execSnapRead (s : State) : Host.Outcome State Fault Refusal :=
  .next (s.answer (.snapshot (snapView s.dec)))

end Sys2Proof.Machine
end

