-- ==== Sys2Proof/Machine/Encoder.lean ====
section
/-! DEFINITION. The operations of ENC (40_frame_encoder.md). None has a failure (R141, R264). -/

namespace Sys2Proof.Machine

/-- ENC_NOP: no state change; `enc_ack` = 0, `tx_valid` = 0 (R138). -/
def execEncNop (s : State) : Host.Outcome State Fault Refusal := .next ((encIdle s).answer .silent)

/-- ENC_LOAD: latch the set and start a frame, or refuse while busy (R134). -/
def execEncLoad (set : ChannelSet) (s : State) : Host.Outcome State Fault Refusal :=
  .next (loadSet set s)

/-- ENC_EMIT: the next byte of the frame, the checksum at offset 57, or idle (R135, R136). -/
def execEncEmit (s : State) : Host.Outcome State Fault Refusal := .next (emitByte s)

/-- ENC_RSV: the reserved code 3 behaves exactly as ENC_NOP (R139). -/
def execEncRsv (s : State) : Host.Outcome State Fault Refusal := .next ((encIdle s).answer .silent)

end Sys2Proof.Machine
end

