-- ==== Sys2Proof/Machine/Sequencer.lean ====
section
/-! DEFINITION. The operations of SCN and the reads of its registers (42_scenario_state_machine.md). -/

namespace Sys2Proof.Machine

/-- SC_NOP: no state change; `trig_accepted` = 0, `trig_reason` = 0 (R226). -/
def execScNop (s : State) : Host.Outcome State Fault Refusal := .next ((scIdle s).answer .silent)

/-- SC_TRIGGER: start the scenario `id`, or reject with the reason (R209 to R211). -/
def execScTrigger (id : BitVec 8) (s : State) : Host.Outcome State Fault Refusal :=
  .next (triggerRun id s)

/-- SC_TICK: let `dt` milliseconds pass for the scenario clock (R220 to R224). -/
def execScTick (dt : U32) (s : State) : Host.Outcome State Fault Refusal :=
  .next ((tickRun dt s).answer .silent)

/-- SC_RSV: the reserved code 3 behaves exactly as SC_NOP (R227). -/
def execScRsv (s : State) : Host.Outcome State Fault Refusal := .next ((scIdle s).answer .silent)

/-- SC_STATUS: the status view, all from one state; no state change (R230). -/
def execScStatus (s : State) : Host.Outcome State Fault Refusal :=
  .next (s.answer (.status (statusView s.cfg s.scn)))

/-- OV_READ: the channels under an override with their specs; no state change (R231). -/
def execOvRead (s : State) : Host.Outcome State Fault Refusal :=
  .next (s.answer (.overrides (activeOverrides s.scn.ov)))

/-- OV_APPLY: the nominal set through the override mux; no state change (R232). -/
def execOvApply (nom : ChannelSet) (s : State) : Host.Outcome State Fault Refusal :=
  .next (s.answer (.eff (applyOvs s.scn.ov nom)))

end Sys2Proof.Machine
end

