-- ==== Sys2Proof/Machine/Dispatch.lean ====
section
/-! DEFINITION. The meaning of every operation, one arm per constructor of Instr. -/

namespace Sys2Proof.Machine

def exec (i : Instr) (s : State) : Host.Outcome State Fault Refusal :=
  match i with
  -- ENC
  | .encNop => Sys2Proof.Machine.execEncNop s
  | .encLoad set => Sys2Proof.Machine.execEncLoad set s
  | .encEmit => Sys2Proof.Machine.execEncEmit s
  | .encRsv => Sys2Proof.Machine.execEncRsv s
  -- DEC
  | .rxNop => Sys2Proof.Machine.execRxNop s
  | .rxByte b => Sys2Proof.Machine.execRxByte b s
  | .rxTime dt => Sys2Proof.Machine.execRxTime dt s
  | .rxRsv => Sys2Proof.Machine.execRxRsv s
  -- SCN
  | .scNop => Sys2Proof.Machine.execScNop s
  | .scTrigger id => Sys2Proof.Machine.execScTrigger id s
  | .scTick dt => Sys2Proof.Machine.execScTick dt s
  | .scRsv => Sys2Proof.Machine.execScRsv s
  -- all units
  | .reset => Sys2Proof.Machine.execReset s
  -- reads of the output ports
  | .snapRead => Sys2Proof.Machine.execSnapRead s
  | .scStatus => Sys2Proof.Machine.execScStatus s
  | .ovRead => Sys2Proof.Machine.execOvRead s
  | .ovApply nom => Sys2Proof.Machine.execOvApply nom s
  -- pseudo-operations
  | .encode set => Sys2Proof.Machine.execEncode set s
  | .rxBytes bs => Sys2Proof.Machine.execRxBytes bs s
  | .decode buf => Sys2Proof.Machine.execDecode buf s
  | .scTicks n dt => Sys2Proof.Machine.execScTicks n dt s
  | .produce dt nom => Sys2Proof.Machine.execProduce dt nom s

end Sys2Proof.Machine
end

