-- ==== Sys2Proof/Machine/Ports.lean ====
section
/-! DEFINITION. The block seen at its ports (30_encoding.md R115 to R119): the input ports of one step
and what they ask of each unit, the output ports with their widths, the numeric codes of R122, and the
presenting and taking of requests. -/

namespace Sys2Proof.Machine

/-- All input ports of one step (R115 to R119); `nom_in` belongs to a read, not to a step. -/
structure InPorts where
  rst : BitVec 1
  encCmd : BitVec 2
  encDin : SetLanes
  rxCmd : BitVec 2
  rxData : Byte
  rxDtMs : U32
  scCmd : BitVec 2
  scId : BitVec 8
  scDtMs : U32
  deriving DecidableEq, Repr

/-- What a step's ports ask for: RESET alone when `rst` = 1, which ignores the command ports (R119,
R267); else one command of each unit, in an order of no consequence (R15, log 1). -/
def InPorts.requests (p : InPorts) : List Request :=
  if p.rst = 1#1 then [.rst 1#1]
  else [.encCmd p.encCmd p.encDin, .rxCmd p.rxCmd p.rxData p.rxDtMs, .scCmd p.scCmd p.scId p.scDtMs]

/-- The agents present requests, after those still waiting (log 1). -/
def present (rs : List Request) (s : State) : State := { s with pending := s.pending ++ rs }

/-- The oldest presented request is taken off the list (log 1). -/
def takeRequest (rest : List Request) (s : State) : State := { s with pending := rest }

/-- A step in which no unit is given a command: the registers hold, and the result ports show what they
show of the no-op commands (60_exceptions.md R285, U20; log 5). -/
def idleStep (s : State) : State := (scIdle (rxIdle (encIdle s))).answer .silent

/-- What a step does on a request that asks for no operation: with `rst` at 0 no unit is given a command
(R119, R285), and RX_BYTES of no byte expands to no RX_BYTE and answers the empty list of results (R124;
log 5). -/
def withoutOperation (why : DecodeError) (s : State) : State :=
  match why with
  | .rstLow => idleStep s
  | .noBytes => s.answer (.rxs [])

/-- `rx_result` codes (R122). -/
def rxCode (r : RxResult) : BitVec 2 :=
  match r with
  | .accepted => 0
  | .badHeader => 1
  | .pending => 2
  | .checksumMismatch => 3

/-- `trig_reason` codes (R122). -/
def reasonCode (r : TrigReason) : BitVec 2 :=
  match r with
  | .noReason => 0
  | .alreadyActive => 1
  | .unknownScenarioId => 2

/-- `scn_status` codes (R45, R122). -/
def statusCode (st : ScnStatus) : BitVec 2 :=
  match st with
  | .idle => 0
  | .active => 1
  | .complete => 2

/-- `link_status` codes (R39, R122). -/
def linkCode (l : LinkStatus) : BitVec 1 :=
  match l with
  | .disconnected => 0
  | .connected => 1

/-- All output ports, the value after the step (R115 to R117). `ov_out` is held as its 8 lanes of 60
bits. -/
structure OutPorts where
  encAck : BitVec 1
  txValid : BitVec 1
  txData : Byte
  encBusy : BitVec 1
  encIdx : BitVec 6
  encRangeWarn : BitVec 1
  rxResult : BitVec 2
  snapOut : BitVec 448
  snapValid : BitVec 1
  linkStatus : BitVec 1
  snapTimeMs : U32
  totalCurrentMa : BitVec 19
  systemVoltageMv : U16
  trigAccepted : BitVec 1
  trigReason : BitVec 2
  scnStatus : BitVec 2
  scnId : BitVec 8
  elapsedMs : U32
  curEvent : BitVec 8
  ovOut : Vector (BitVec 60) 8
  deriving DecidableEq, Repr

/-- The output ports of a state (R115 to R117). -/
def State.outPorts (s : State) : OutPorts :=
  { encAck := BitVec.ofBool s.encOut.encAck
    txValid := BitVec.ofBool s.encOut.txValid
    txData := s.encOut.txData
    encBusy := BitVec.ofBool s.enc.encBusy
    encIdx := BitVec.ofNat 6 s.enc.encIdx.val
    encRangeWarn := BitVec.ofBool s.enc.encRangeWarn
    rxResult := rxCode s.rxResult
    snapOut := packSet s.dec.snap
    snapValid := BitVec.ofBool s.dec.snapValid
    linkStatus := linkCode s.dec.linkStatus
    snapTimeMs := s.dec.snapTimeMs
    totalCurrentMa := BitVec.ofNat 19 (totalCurrentMa s.dec.snap)
    systemVoltageMv := BitVec.ofNat 16 (systemVoltageMv s.dec.snap)
    trigAccepted := BitVec.ofBool s.trig.trigAccepted
    trigReason := reasonCode s.trig.trigReason
    scnStatus := statusCode s.scn.scnStatus
    scnId := s.scn.scnId
    elapsedMs := s.scn.elapsedMs
    curEvent := s.scn.curEvent
    ovOut := Vector.ofFn fun c => packOv s.scn.ov[c] }

/-- `eff_out`: combinational from `nom_in` and `ov` (R117). -/
def State.effOut (s : State) (nomIn : SetLanes) : SetLanes :=
  packLanes (applyOvs s.scn.ov (unpackLanes nomIn))

end Sys2Proof.Machine
end

