-- ==== Sys2Proof/Machine/Step.lean ====
section
/-! DEFINITION. One step: the oldest presented operation is performed, whole (00_scope.md R15). -/

namespace Sys2Proof.Machine

/-- One step of the block. With nothing presented, every unit holds its state (60_exceptions.md R285;
log 4). On a request that asks for no operation no unit is given a command (log 5). -/
def step (s : State) : Host.Outcome State Fault Refusal :=
  match s.pending with
  | [] => .next s
  | r :: rest =>
    match decode r with
    | .ok i => exec i (takeRequest rest s)
    | .error why => .next (withoutOperation why (takeRequest rest s))

/-- The table word `w` presented as the operation the next step performs, before those waiting (log 3). -/
def State.withFetchWord (s : State) (nbits w : Nat) : State :=
  { s with pending := tableRequest nbits w :: s.pending }

end Sys2Proof.Machine
end

