-- ==== Sys2Proof/Safety.lean ====
section
/-! DEFINITION. The terms the statements use: what each unit and the rest of the state keep, the
invariants of 10_state.md R57, sequences of operations, and the source's consumer loop
(41_frame_decoder.md R171) as a reference for DEC. -/

namespace Sys2Proof.Machine

/-! ### Frames -/

/-- ENC is as before: its registers, its result ports and the tx stream. -/
def encKept (s t : State) : Prop := t.enc = s.enc ∧ t.encOut = s.encOut ∧ t.txStream = s.txStream

/-- DEC is as before: its registers, its result port and the rx stream. -/
def decKept (s t : State) : Prop := t.dec = s.dec ∧ t.rxResult = s.rxResult ∧ t.rxStream = s.rxStream

/-- SCN is as before: its registers and its result ports. -/
def scnKept (s t : State) : Prop := t.scn = s.scn ∧ t.trig = s.trig

/-- The build's parameters and the operations still presented are as before. -/
def restKept (s t : State) : Prop := t.cfg = s.cfg ∧ t.pending = s.pending

/-- Every register of the block is as before. -/
def registersKept (s t : State) : Prop := t.enc = s.enc ∧ t.dec = s.dec ∧ t.scn = s.scn

/-! ### Sequences of operations -/

/-- The state after a list of operations performed in order; `none` if one of them stops. -/
def runOps : List Instr → State → Option State
  | [], s => some s
  | i :: is, s =>
    match exec i s with
    | .next t => runOps is t
    | .fault _ => none
    | .refused _ => none

/-- The bytes the RX_BYTEs of a list of operations present, in order (R61). -/
def presentedBytes (ops : List Instr) : List Byte :=
  ops.filterMap fun i =>
    match i with
    | .rxByte b => some b
    | _ => none

/-- The states right after each RX_BYTE of a list of operations performed in order. -/
def statesAfterBytes : List Instr → State → List State
  | [], _ => []
  | i :: is, s =>
    match exec i s with
    | .next t => (presentedBytes [i]).map (fun _ => t) ++ statesAfterBytes is t
    | .fault _ => []
    | .refused _ => []

/-- The state after `n` steps; `none` if one of them stops. -/
def runSteps : Nat → State → Option State
  | 0, s => some s
  | n + 1, s =>
    match step s with
    | .next t => runSteps n t
    | .fault _ => none
    | .refused _ => none

/-! ### The invariants of R57 -/

/-- Items 1 and 2 of R57. -/
structure EncInv (e : Enc) : Prop where
  idle : e.encBusy = false → e.encIdx = 0 ∧ e.encXor = 0x00#8
  busy : e.encBusy = true → e.encXor = xor8 ((frame e.encSet).take e.encIdx.val)

/-- Items 4, 5 and 14 of R57; item 3 is the type of `rx_cnt`. -/
structure DecInv (cfg : Config) (d : Dec) : Prop where
  connected : d.linkStatus = .connected →
    d.snapValid = true ∧ d.silenceMs.toNat ≤ cfg.linkTimeoutMs.toNat
  invalid : d.snapValid = false →
    d.snap = zeroSet ∧ d.snapTimeMs = 0 ∧ d.linkStatus = .disconnected
  reserved : ∀ c : Fin 8, d.snap[c].status &&& ST_RSVD = 0

/-- Items 7 to 13 of R57, and the width of `fired` (R48); item 6 is the type of `scn_status`. -/
structure ScnInv (cfg : Config) (c : Scn) : Prop where
  width : c.fired.length = cfg.maxEntries
  idle : c.scnStatus = .idle → c = Scn.reset cfg.maxEntries
  known : c.scnStatus ≠ .idle → c.scnId.toNat < cfg.nScn
  clear : c.scnStatus ≠ .active → c.ov = clearOvs
  settle : c.scnStatus ≠ .complete → c.settleMs = 0
  complete : c.scnStatus = .complete →
    (timeline cfg c.scnId).durationMs.toNat ≤ c.elapsedMs.toNat
  event : c.curEvent ≠ NONE →
    c.scnStatus ≠ .idle ∧ c.curEvent.toNat < (timeline cfg c.scnId).entries.length
      ∧ c.fired.getD c.curEvent.toNat false = true
  firedDue : ∀ i, c.fired.getD i false = true →
    ∃ e, (timeline cfg c.scnId).entries[i]? = some e ∧ e.offsetMs.toNat ≤ c.elapsedMs.toNat

/-- The window holds the rx stream from the cursor on (R61, R62), and the tx stream ends with the bytes
of the frame in progress (R60, R73). -/
structure StreamInv (s : State) : Prop where
  window : s.dec.rxCnt.val ≤ s.rxStream.length
    ∧ s.dec.rxWin.toList.take s.dec.rxCnt.val = s.rxStream.drop (cursor s)
  frame : s.enc.encBusy = true →
    ∃ before, s.txStream = before ++ (frame s.enc.encSet).take s.enc.encIdx.val

/-- All invariants of a state of a legal build. -/
structure Inv (s : State) : Prop where
  legal : legalConfig s.cfg = true
  enc : EncInv s.enc
  dec : DecInv s.cfg s.dec
  scn : ScnInv s.cfg s.scn
  streams : StreamInv s

/-! ### The source's consumer loop -/

/-- The attempts of the source's consumer loop on a received sequence with the cursor at its start, in
order: 58 bytes at the cursor; on success 58 further, on failure 1 further (R171, R181). The first
argument bounds the number of attempts. -/
def consumerAttempts : Nat → List Byte → List DecodeResult
  | 0, _ => []
  | n + 1, bs =>
    if bs.length < FRAME_LEN then []
    else
      match decodeFrame (bs.take FRAME_LEN) with
      | .ok set => .ok set :: consumerAttempts n (bs.drop FRAME_LEN)
      | .badLength => []
      | .badHeader => .badHeader :: consumerAttempts n (bs.drop 1)
      | .checksumMismatch => .checksumMismatch :: consumerAttempts n (bs.drop 1)

/-- What DEC shows of an attempt: the published set on Accepted, nothing while Pending (R122). -/
def shownAttempt (t : State) : List DecodeResult :=
  match t.rxResult with
  | .accepted => [.ok t.dec.snap]
  | .badHeader => [.badHeader]
  | .pending => []
  | .checksumMismatch => [.checksumMismatch]

/-- The attempts DEC shows when the bytes are presented one RX_BYTE each. -/
def shownAttempts : List Byte → State → List DecodeResult
  | [], _ => []
  | b :: bs, s =>
    match exec (.rxByte b) s with
    | .next t => shownAttempt t ++ shownAttempts bs t
    | .fault _ => []
    | .refused _ => []

/-! ### Relations between states -/

/-- Two states that differ at most in window bytes at or above `rx_cnt`, which are not meaningful (R35). -/
def sameButStale (s t : State) : Prop :=
  ∃ win : Vector Byte 58,
    win.toList.take s.dec.rxCnt.val = s.dec.rxWin.toList.take s.dec.rxCnt.val
      ∧ t = { s with dec := { s.dec with rxWin := win } }

/-- The entries of a timeline that a tick to `now` fires, with their indices, in index order (R222). -/
def dueEntries (now : U32) (fired : List Bool) (tl : Scenario) : List (Nat × Entry) :=
  (tl.entries.zipIdx.map fun p => (p.2, p.1)).filter fun p => isDue now p.1 p.2 fired

end Sys2Proof.Machine
end

