-- ==== Sys2Proof/WellFormed.lean ====
section
/-! DEFINITION. Which operations are well formed. Every operand is whole by its type (a SET has 8
records, a channel index is below 8, R52), so one check is left: RX_BYTES presents `b0 b1 ... bn`, at
least one byte (30_encoding.md R124; log 5). -/

namespace Sys2Proof

/-- The check an operation's operands must pass. -/
def Instr.wellFormed : Instr → Bool
  | .encNop => true
  | .encLoad _ => true
  | .encEmit => true
  | .encRsv => true
  | .rxNop => true
  | .rxByte _ => true
  | .rxTime _ => true
  | .rxRsv => true
  | .scNop => true
  | .scTrigger _ => true
  | .scTick _ => true
  | .scRsv => true
  | .reset => true
  | .snapRead => true
  | .scStatus => true
  | .ovRead => true
  | .ovApply _ => true
  | .encode _ => true
  | .rxBytes bs => !bs.isEmpty
  | .decode _ => true
  | .scTicks _ _ => true
  | .produce _ _ => true

end Sys2Proof
end

