-- ==== Sys2Proof/Certificates/Slice0/Obligations.lean ====
section
/-! DEFINITION. The statements about the model, from the numbered rules of spec/. -/

open Sys2Proof
open Sys2Proof.Machine

/-! ### ENC -/

/-- ENC_NOP (R138), code 0, and ENC_RSV (R139), code 3, change no register of any unit and quieten ENC's
result ports; a frame in progress stays in progress. -/
def Obligations.EncNoOpsKeepEveryRegister : Prop :=
  (∀ din, decode (.encCmd 0#2 din) = .ok .encNop ∧ decode (.encCmd 3#2 din) = .ok .encRsv)
  ∧ ∀ s : State, ∃ t, exec .encNop s = .next t ∧ exec .encRsv s = .next t
    ∧ t.enc = s.enc ∧ t.encOut = { encAck := false, txValid := false, txData := 0x00#8 }
    ∧ t.txStream = s.txStream ∧ t.result = .silent
    ∧ decKept s t ∧ scnKept s t ∧ restKept s t

/-- ENC_LOAD (R134), code 1: accepted while idle, with every register of ENC as the rule gives it; refused
with no state change while busy. It emits no byte. -/
def Obligations.EncLoadLatchesOrRefuses : Prop :=
  (∀ din, decode (.encCmd 1#2 din) = .ok (.encLoad (unpackLanes din)))
  ∧ ∀ (set : ChannelSet) (s : State), ∃ t, exec (.encLoad set) s = .next t
    ∧ (s.enc.encBusy = false →
        t.enc = { encSet := set, encBusy := true, encIdx := 0, encXor := 0x00#8,
                  encRangeWarn := !validSet set }
        ∧ t.encOut = { encAck := true, txValid := false, txData := 0x00#8 }
        ∧ t.result = .ack true)
    ∧ (s.enc.encBusy = true →
        t.enc = s.enc
        ∧ t.encOut = { encAck := false, txValid := false, txData := 0x00#8 }
        ∧ t.result = .ack false)
    ∧ t.txStream = s.txStream ∧ decKept s t ∧ scnKept s t ∧ restKept s t

/-- The range flag after an accepted ENC_LOAD (R31 by R96): 1 exactly when some channel has a field out of
its valid range or a reserved status bit set. -/
def Obligations.RangeWarnExactlyOnDefect : Prop :=
  ∀ (set : ChannelSet) (s : State), s.enc.encBusy = false →
    ∃ t, exec (.encLoad set) s = .next t
      ∧ (t.enc.encRangeWarn = true ↔ ∃ c : Fin 8,
          16000 < set[c].voltageMv.toNat ∨ 50000 < set[c].currentMa.toNat
          ∨ set[c].temperatureDecic.toInt < -400 ∨ 1250 < set[c].temperatureDecic.toInt
          ∨ set[c].status.getLsbD 4 = true ∨ set[c].status.getLsbD 5 = true
          ∨ set[c].status.getLsbD 6 = true ∨ set[c].status.getLsbD 7 = true)

/-- ENC_EMIT, code 2, when idle or below offset 57 (R135), with the byte read off `frame(enc_set)`. -/
def Obligations.EncEmitSendsTheNextByte : Prop :=
  (∀ din, decode (.encCmd 2#2 din) = .ok .encEmit)
  ∧ ∀ s : State, ∃ t, exec .encEmit s = .next t
    ∧ (s.enc.encBusy = false →
        t.enc = s.enc ∧ t.encOut = { encAck := false, txValid := false, txData := 0x00#8 }
        ∧ t.txStream = s.txStream ∧ t.result = .tx none)
    ∧ (∀ b, s.enc.encBusy = true → s.enc.encIdx.val < 57 →
        (frame s.enc.encSet)[s.enc.encIdx.val]? = some b →
        t.enc.encXor = s.enc.encXor ^^^ b ∧ t.enc.encIdx.val = s.enc.encIdx.val + 1
        ∧ t.enc.encSet = s.enc.encSet ∧ t.enc.encBusy = true
        ∧ t.enc.encRangeWarn = s.enc.encRangeWarn
        ∧ t.encOut = { encAck := false, txValid := true, txData := b }
        ∧ t.txStream = s.txStream ++ [b] ∧ t.result = .tx (some b))
    ∧ decKept s t ∧ scnKept s t ∧ restKept s t

/-- ENC_EMIT at offset 57 (R136): the running checksum leaves and ENC is idle again, holding its set and
its range flag; by the invariant of R57 item 2 that byte is the frame's checksum. -/
def Obligations.EncEmitSendsTheChecksum : Prop :=
  ∀ s : State, s.enc.encBusy = true → s.enc.encIdx.val = 57 →
    ∃ t, exec .encEmit s = .next t
      ∧ t.enc = { encSet := s.enc.encSet, encBusy := false, encIdx := 0, encXor := 0x00#8,
                  encRangeWarn := s.enc.encRangeWarn }
      ∧ t.encOut = { encAck := false, txValid := true, txData := s.enc.encXor }
      ∧ t.txStream = s.txStream ++ [s.enc.encXor] ∧ t.result = .tx (some s.enc.encXor)
      ∧ (EncInv s.enc → s.enc.encXor = xor8 ((frame s.enc.encSet).take 57)
          ∧ (frame s.enc.encSet)[57]? = some s.enc.encXor)
      ∧ decKept s t ∧ scnKept s t ∧ restKept s t

/-- ENCODE (R137): from idle, the 58 bytes appended to the tx stream are `frame(set)`, in order, and ENC
is idle again, holding the set. -/
def Obligations.EncodeEmitsItsFrame : Prop :=
  ∀ (set : ChannelSet) (s : State), s.enc.encBusy = false →
    ∃ t, exec (.encode set) s = .next t
      ∧ t.txStream = s.txStream ++ frame set ∧ t.result = .emitted (frame set)
      ∧ t.enc = { encSet := set, encBusy := false, encIdx := 0, encXor := 0x00#8,
                  encRangeWarn := !validSet set }
      ∧ t.encOut = { encAck := false, txValid := true, txData := xor8 ((frame set).take 57) }
      ∧ decKept s t ∧ scnKept s t ∧ restKept s t

/-- A frame in progress leaves in offset order whatever operations come between its ENC_EMITs: no-ops,
refused loads, operations of the other units and reads (R73 item 1, R137). RESET and the
pseudo-operations are the operations left out. -/
def Obligations.FrameLeavesInOrderUnderInterleaving : Prop :=
  ∀ (ops : List Instr) (s : State), EncInv s.enc → s.enc.encBusy = true →
    (∀ i ∈ ops, i ≠ .reset ∧ i.format ≠ .pseudo) →
    ops.count .encEmit ≤ 58 - s.enc.encIdx.val →
    ∃ t, runOps ops s = some t
      ∧ t.txStream
        = s.txStream ++ ((frame s.enc.encSet).drop s.enc.encIdx.val).take (ops.count .encEmit)

/-- The model's choice (log 14): ENCODE and PRODUCE while ENC is busy emit nothing and keep ENC's
registers; PRODUCE has ticked SCN before. -/
def Obligations.EncodeWhileBusyEmitsNothing : Prop :=
  ∀ (set : ChannelSet) (dt : U32) (s : State), s.enc.encBusy = true →
    (∃ t, exec (.encode set) s = .next t ∧ exec (.encLoad set) s = .next t)
    ∧ ∃ t u, exec (.produce dt set) s = .next t ∧ exec (.scTick dt) s = .next u
      ∧ t.enc = s.enc ∧ t.txStream = s.txStream ∧ t.result = .ack false
      ∧ t.scn = u.scn ∧ t.trig = u.trig ∧ decKept s t ∧ restKept s t

/-- PRODUCE (R320, R124): from an idle ENC, the scenario clock is ticked, the nominal set goes through
the override mux as it stands after the tick, and the frame of the effective set leaves. -/
def Obligations.ProduceSendsTheEffectiveSet : Prop :=
  ∀ (dt : U32) (nom : ChannelSet) (s : State), s.enc.encBusy = false →
    ∃ t u v eff, exec (.produce dt nom) s = .next t
      ∧ exec (.scTick dt) s = .next u
      ∧ exec (.ovApply nom) u = .next v ∧ v.result = .eff eff
      ∧ t.scn = u.scn ∧ t.trig = u.trig
      ∧ t.txStream = s.txStream ++ frame eff ∧ t.result = .emitted (frame eff)
      ∧ t.enc = { encSet := eff, encBusy := false, encIdx := 0, encXor := 0x00#8,
                  encRangeWarn := !validSet eff }
      ∧ t.encOut = { encAck := false, txValid := true, txData := xor8 ((frame eff).take 57) }
      ∧ decKept s t ∧ restKept s t

/-! ### The frame -/

/-- The 58 bytes of `frame(s)` at every offset (R130). -/
def Obligations.FrameHoldsEveryField : Prop :=
  ∀ s : ChannelSet, (frame s).length = 58 ∧ (frame s)[0]? = some 0xAA#8
    ∧ (∀ c : Fin 8,
        (frame s)[1 + 7 * c.val + 0]? = some (s[c].voltageMv.extractLsb' 0 8)
        ∧ (frame s)[1 + 7 * c.val + 1]? = some (s[c].voltageMv.extractLsb' 8 8)
        ∧ (frame s)[1 + 7 * c.val + 2]? = some (s[c].currentMa.extractLsb' 0 8)
        ∧ (frame s)[1 + 7 * c.val + 3]? = some (s[c].currentMa.extractLsb' 8 8)
        ∧ (frame s)[1 + 7 * c.val + 4]? = some (s[c].temperatureDecic.extractLsb' 0 8)
        ∧ (frame s)[1 + 7 * c.val + 5]? = some (s[c].temperatureDecic.extractLsb' 8 8)
        ∧ (frame s)[1 + 7 * c.val + 6]? = some (s[c].status &&& 0x0F#8))
    ∧ (frame s)[57]? = some (xor8 ((frame s).take 57))

/-- Two sets give the same frame exactly when they agree but for reserved status bits (R132 item 4). -/
def Obligations.FramesAgreeIffCanonAgrees : Prop :=
  ∀ s u : ChannelSet, frame s = frame u ↔ canon s = canon u

/-- Parsing a frame and serializing it again gives the frame (R142). -/
def Obligations.FrameOfParsedFrame : Prop :=
  ∀ s : ChannelSet, frame (parse (frame s)) = frame s

/-- A set on its 448-bit port (R102): channel `c` is bits `56*c+55 : 56*c`; read as bytes from the least
significant one, a set without reserved status bits is offsets 1 to 56 of its frame. -/
def Obligations.SetPortReadsAsPayload : Prop :=
  ∀ s : ChannelSet,
    (∀ c : Fin 8, (packSet s).extractLsb' (56 * c.val) 56
      = s[c].status ++ s[c].temperatureDecic ++ s[c].currentMa ++ s[c].voltageMv)
    ∧ ((∀ c : Fin 8, s[c].status &&& 0xF0#8 = 0#8) →
      ∀ j < 56, (frame s)[1 + j]? = some ((packSet s).extractLsb' (8 * j) 8))

/-! ### DEC -/

/-- RX_NOP (R178), code 0, and RX_RSV (R179), code 3, change no register and set `rx_result` to 2,
Pending. -/
def Obligations.RxNoOpsKeepEveryRegister : Prop :=
  (∀ b dt, decode (.rxCmd 0#2 b dt) = .ok .rxNop ∧ decode (.rxCmd 3#2 b dt) = .ok .rxRsv)
  ∧ ∀ s : State, ∃ t, exec .rxNop s = .next t ∧ exec .rxRsv s = .next t
    ∧ t.dec = s.dec ∧ t.rxResult = .pending ∧ rxCode t.rxResult = 2#2
    ∧ t.rxStream = s.rxStream ∧ t.result = .silent
    ∧ encKept s t ∧ scnKept s t ∧ restKept s t

/-- RX_BYTE while fewer than 58 bytes stand at the cursor (R172): the byte is kept at offset `rx_cnt` of
the window, the cursor, every other byte of the window and every other register of DEC stay. -/
def Obligations.RxBytePendingKeepsTheByte : Prop :=
  ∀ (b : Byte) (s : State), s.dec.rxCnt.val + 1 < 58 →
    ∃ t, exec (.rxByte b) s = .next t
      ∧ t.rxResult = .pending ∧ rxCode t.rxResult = 2#2 ∧ t.result = .rx .pending
      ∧ t.dec.rxCnt.val = s.dec.rxCnt.val + 1 ∧ cursor t = cursor s
      ∧ t.readByte .win s.dec.rxCnt.val = some b
      ∧ (∀ a, a ≠ s.dec.rxCnt.val → t.readByte .win a = s.readByte .win a)
      ∧ t.dec = { s.dec with rxWin := t.dec.rxWin, rxCnt := t.dec.rxCnt }
      ∧ t.rxStream = s.rxStream ++ [b] ∧ encKept s t ∧ scnKept s t ∧ restKept s t

/-- RX_BYTE that completes a window with a good header and a good checksum (R173, R164): the whole
snapshot cell is written in this step, the window keeps its bytes and is empty, the cursor is 58 further. -/
def Obligations.RxByteAcceptsAndPublishes : Prop :=
  ∀ (b : Byte) (s : State) (w : List Byte), s.dec.rxCnt.val = 57 →
    w = memRead .win 0 57 s ++ [b] → w[0]? = some 0xAA#8 → xor8 w = 0x00#8 →
    ∃ t, exec (.rxByte b) s = .next t
      ∧ t.rxResult = .accepted ∧ rxCode t.rxResult = 0#2 ∧ t.result = .rx .accepted
      ∧ (∀ c : Fin 8, ∀ b0 b1 b2 b3 b4 b5 b6 : Byte,
          (w.drop (1 + 7 * c.val)).take 7 = [b0, b1, b2, b3, b4, b5, b6] →
          t.dec.snap[c] = { voltageMv := b1 ++ b0, currentMa := b3 ++ b2,
                            temperatureDecic := b5 ++ b4, status := b6 &&& 0x0F#8 })
      ∧ t.dec.snapValid = true ∧ t.dec.snapTimeMs = s.dec.rxClockMs
      ∧ t.dec.linkStatus = .connected ∧ t.dec.silenceMs = 0 ∧ t.dec.rxCnt = 0
      ∧ t.dec.rxClockMs = s.dec.rxClockMs ∧ memRead .win 0 58 t = w
      ∧ (57 ≤ s.rxStream.length → cursor t = cursor s + 58)
      ∧ t.rxStream = s.rxStream ++ [b] ∧ encKept s t ∧ scnKept s t ∧ restKept s t

/-- RX_BYTE that completes a window with a bad header or a bad checksum (R174): the byte at the cursor is
dropped, the other 57 move down, the cursor is 1 further, the snapshot cell and the liveness timer stay;
the header is tested first (R267). -/
def Obligations.RxByteRejectsAndMovesOne : Prop :=
  ∀ (b : Byte) (s : State) (w : List Byte), s.dec.rxCnt.val = 57 →
    w = memRead .win 0 57 s ++ [b] → ¬ (w[0]? = some 0xAA#8 ∧ xor8 w = 0x00#8) →
    ∃ t, exec (.rxByte b) s = .next t
      ∧ t.rxResult = (if w[0]? = some 0xAA#8 then .checksumMismatch else .badHeader)
      ∧ rxCode t.rxResult = (if w[0]? = some 0xAA#8 then 3#2 else 1#2)
      ∧ t.result = .rx t.rxResult
      ∧ t.dec.rxCnt.val = 57
      ∧ (∀ a < 57, t.readByte .win a = w[a + 1]?)
      ∧ t.dec = { s.dec with rxWin := t.dec.rxWin }
      ∧ (57 ≤ s.rxStream.length → cursor t = cursor s + 1)
      ∧ t.rxStream = s.rxStream ++ [b] ∧ encKept s t ∧ scnKept s t ∧ restKept s t

/-- RX_TIME (R176), code 2: the clock wraps, the silence saturates, the link drops when the silence is
longer than the timeout, and nothing else of DEC moves; by R57 item 4, no time at all changes nothing. -/
def Obligations.RxTimeCountsAndTimesOut : Prop :=
  (∀ b dt, decode (.rxCmd 2#2 b dt) = .ok (.rxTime dt))
  ∧ ∀ (dt : U32) (s : State), ∃ t, exec (.rxTime dt) s = .next t
    ∧ t.dec.rxClockMs.toNat = (s.dec.rxClockMs.toNat + dt.toNat) % 2 ^ 32
    ∧ t.dec.silenceMs.toNat = min (s.dec.silenceMs.toNat + dt.toNat) (2 ^ 32 - 1)
    ∧ (s.cfg.linkTimeoutMs.toNat < t.dec.silenceMs.toNat → t.dec.linkStatus = .disconnected)
    ∧ (t.dec.silenceMs.toNat ≤ s.cfg.linkTimeoutMs.toNat → t.dec.linkStatus = s.dec.linkStatus)
    ∧ t.dec = { s.dec with rxClockMs := t.dec.rxClockMs, silenceMs := t.dec.silenceMs,
                           linkStatus := t.dec.linkStatus }
    ∧ (DecInv s.cfg s.dec → dt = 0#32 → t.dec = s.dec)
    ∧ t.rxResult = .pending ∧ t.rxStream = s.rxStream ∧ t.result = .silent
    ∧ encKept s t ∧ scnKept s t ∧ restKept s t

/-- Of all operations, only an accepted frame ends Disconnected (R177), and only RESET and an RX_TIME
whose silence passes the timeout end Connected (R263). -/
def Obligations.LinkStatusHasOnlyItsCauses : Prop :=
  ∀ (i : Instr) (s t : State), exec i s = .next t →
    (s.dec.linkStatus = .disconnected → t.dec.linkStatus = .connected →
      (∃ b, i = .rxByte b ∧ t.rxResult = .accepted)
      ∨ ∃ bs l, i = .rxBytes bs ∧ t.result = .rxs l ∧ RxResult.accepted ∈ l)
    ∧ (s.dec.linkStatus = .connected → t.dec.linkStatus = .disconnected →
      i = .reset ∨ ∃ dt : U32, i = .rxTime dt
        ∧ s.cfg.linkTimeoutMs.toNat < min (s.dec.silenceMs.toNat + dt.toNat) (2 ^ 32 - 1))

/-- SNAP_READ (R180): the snapshot cell from one state, with the sum of the currents (R24) and the largest
voltage (R25), and no state change; before the first accepted frame, by R57 items 4 and 5, all zero. -/
def Obligations.SnapReadAnswersTheCell : Prop :=
  ∀ s : State, ∃ t v, exec .snapRead s = .next t ∧ t.result = .snapshot v
    ∧ v.valid = s.dec.snapValid ∧ v.link = s.dec.linkStatus ∧ v.t = s.dec.snapTimeMs
    ∧ v.set = s.dec.snap
    ∧ v.itot = ∑ c : Fin 8, s.dec.snap[c].currentMa.toNat
    ∧ (∀ c : Fin 8, s.dec.snap[c].voltageMv.toNat ≤ v.vsys)
    ∧ (∃ c : Fin 8, s.dec.snap[c].voltageMv.toNat = v.vsys)
    ∧ (DecInv s.cfg s.dec → s.dec.snapValid = false →
        v.link = .disconnected ∧ v.set = zeroSet ∧ v.t = 0 ∧ v.vsys = 0 ∧ v.itot = 0)
    ∧ encKept s t ∧ decKept s t ∧ scnKept s t ∧ restKept s t

/-- The derived fields of a set (R24, R25): the plain sum of the eight currents, at most 524280, and the
largest of the eight voltages; the ports of R116 hold both for the snapshot without wrapping. -/
def Obligations.DerivedFieldsAreSumAndLargest : Prop :=
  (∀ u : ChannelSet,
    totalCurrentMa u = ∑ c : Fin 8, u[c].currentMa.toNat ∧ totalCurrentMa u ≤ 8 * 65535
    ∧ (∀ c : Fin 8, u[c].voltageMv.toNat ≤ systemVoltageMv u)
    ∧ ∃ c : Fin 8, u[c].voltageMv.toNat = systemVoltageMv u)
  ∧ ∀ s : State, s.outPorts.totalCurrentMa.toNat = totalCurrentMa s.dec.snap
    ∧ s.outPorts.systemVoltageMv.toNat = systemVoltageMv s.dec.snap

/-- DECODE (R162): the verdict on a list of any length, length before header before checksum; the two
forms of the checksum test are the same (R161); no register and no stream changes. -/
def Obligations.DecodeGivesOneVerdict : Prop :=
  ∀ (buf : List Byte) (s : State), ∃ t v, exec (.decode buf) s = .next t ∧ t.result = .decoded v
    ∧ (buf.length = 58 → (buf[57]? = some (xor8 (buf.take 57)) ↔ xor8 buf = 0x00#8))
    ∧ (buf.length ≠ 58 → v = .badLength)
    ∧ (buf.length = 58 → buf[0]? ≠ some 0xAA#8 → v = .badHeader)
    ∧ (buf.length = 58 → buf[0]? = some 0xAA#8 → buf[57]? ≠ some (xor8 (buf.take 57)) →
        v = .checksumMismatch)
    ∧ (buf.length = 58 → buf[0]? = some 0xAA#8 → buf[57]? = some (xor8 (buf.take 57)) →
        v = .ok (parse buf))
    ∧ encKept s t ∧ decKept s t ∧ scnKept s t ∧ restKept s t

/-- The round trip of the codec (R168): decoding a frame gives the set with its reserved status bits
cleared, and a valid set itself; the derived fields agree. -/
def Obligations.DecodeOfFrameIsTheSet : Prop :=
  ∀ (set : ChannelSet) (s : State), ∃ t, exec (.decode (frame set)) s = .next t
    ∧ t.result = .decoded (.ok (canon set)) ∧ (validSet set = true → canon set = set)
    ∧ systemVoltageMv (canon set) = systemVoltageMv set
    ∧ totalCurrentMa (canon set) = totalCurrentMa set

/-- Single-bit sensitivity (R169): a frame with exactly one bit flipped is BadHeader for a bit of offset 0
and ChecksumMismatch for any other. -/
def Obligations.SingleBitFlipIsRejected : Prop :=
  ∀ (set : ChannelSet) (j i : Nat) (s : State), j < 58 → i < 8 →
    ∃ t, exec (.decode ((frame set).modify j (fun b => b ^^^ (1#8 <<< i)))) s = .next t
      ∧ t.result = .decoded (if j = 0 then .badHeader else .checksumMismatch)

/-- RX_BYTES is RX_BYTE of each byte in order, and answers the list of their results (R124). -/
def Obligations.RxBytesIsItsExpansion : Prop :=
  ∀ (bs : List Byte) (s : State), ∃ t u l, exec (.rxBytes bs) s = .next t
    ∧ runOps (bs.map .rxByte) s = some u
    ∧ t = { u with result := .rxs l } ∧ l.length = bs.length
    ∧ (∀ k < bs.length, ∃ v, runOps ((bs.take (k + 1)).map .rxByte) s = some v
        ∧ l[k]? = some v.rxResult)
    ∧ t.rxStream = s.rxStream ++ bs ∧ encKept s t ∧ scnKept s t ∧ restKept s t

/-- DEC makes the attempts of the source's consumer loop, in the same order, with the same verdicts and
the same published sets, from any window and for any bytes (R171). -/
def Obligations.DecMatchesTheConsumerLoop : Prop :=
  ∀ (bs : List Byte) (s : State) (n : Nat), s.dec.rxCnt.val + bs.length ≤ n →
    shownAttempts bs s = consumerAttempts n (memRead .win 0 s.dec.rxCnt.val s ++ bs)

/-- Perfect transport (R80). From an empty window, with the frames of any sets presented byte by byte in
RX_BYTEs and any commands or reads between them (RX_TIMEs, no-ops, those of other units), the results are
57 Pending and one Accepted for each frame; after the `j`-th Accepted the snapshot is `canon` of the `j`-th
set and the window is empty. When nothing stands between the bytes (RX_BYTES), the whole snapshot cell and
the liveness registers after the last frame are given too. -/
def Obligations.PerfectTransportDeliversEverySet : Prop :=
  (∀ (sets : List ChannelSet) (ops : List Instr) (s : State), s.dec.rxCnt = 0 →
    (∀ i ∈ ops, i ≠ .reset ∧ i.format ≠ .pseudo) → presentedBytes ops = sets.flatMap frame →
    ∃ t, runOps ops s = some t ∧ t.dec.rxCnt = 0
      ∧ (statesAfterBytes ops s).map (fun u => u.rxResult)
        = sets.flatMap (fun _ => List.replicate 57 .pending ++ [.accepted])
      ∧ ((statesAfterBytes ops s).filter fun u => u.rxResult = .accepted).map
          (fun u => (u.dec.snap, u.dec.rxCnt))
        = sets.map fun x => (canon x, 0))
  ∧ ∀ (sets : List ChannelSet) (last : ChannelSet) (s : State), s.dec.rxCnt = 0 →
    ∃ t, exec (.rxBytes ((sets ++ [last]).flatMap frame)) s = .next t
      ∧ t.result
        = .rxs ((sets ++ [last]).flatMap fun _ => List.replicate 57 .pending ++ [.accepted])
      ∧ t.dec.snap = canon last ∧ t.dec.rxCnt = 0 ∧ t.dec.snapValid = true
      ∧ t.dec.linkStatus = .connected ∧ t.dec.silenceMs = 0
      ∧ t.dec.snapTimeMs = s.dec.rxClockMs ∧ t.dec.rxClockMs = s.dec.rxClockMs
      ∧ encKept s t ∧ scnKept s t ∧ restKept s t

/-- Resynchronization after one garbage byte (R182): the window of the byte and the first 57 bytes of the
frame is accepted exactly when the byte and the frame's checksum are both 0xAA, a false acceptance; in
every other case it fails, and both frames are recovered, in order. -/
def Obligations.ResyncSkipsOneGarbageByte : Prop :=
  ∀ (g : Byte) (s1 s2 : ChannelSet) (s : State), s.dec.rxCnt = 0 →
    ((frame s1)[57]? = some 0xAA#8 ↔ xor8 (((frame s1).take 57).drop 1) = 0x00#8)
    ∧ (∃ t, exec (.rxBytes (g :: (frame s1).take 57)) s = .next t
      ∧ (t.rxResult = .accepted ↔ g = 0xAA#8 ∧ (frame s1)[57]? = some 0xAA#8))
    ∧ (¬ (g = 0xAA#8 ∧ (frame s1)[57]? = some 0xAA#8) →
      ∃ t u, exec (.rxBytes (g :: frame s1)) s = .next t
        ∧ t.result = .rxs (List.replicate 57 .pending
            ++ [if g = 0xAA#8 then .checksumMismatch else .badHeader] ++ [.accepted])
        ∧ t.dec.snap = canon s1 ∧ t.dec.rxCnt = 0
        ∧ exec (.rxBytes (frame s2)) t = .next u
        ∧ u.result = .rxs (List.replicate 57 .pending ++ [.accepted])
        ∧ u.dec.snap = canon s2 ∧ u.dec.rxCnt = 0)

/-- Window bytes at or above `rx_cnt` decide no result (R35): two states that differ only in them answer
every operation alike and differ only in them afterwards. -/
def Obligations.StaleWindowBytesDecideNothing : Prop :=
  ∀ (i : Instr) (s u : State), sameButStale s u →
    ∃ t v, exec i s = .next t ∧ exec i u = .next v ∧ t.result = v.result ∧ sameButStale t v

/-! ### SCN -/

/-- SC_NOP (R226), code 0, and SC_RSV (R227), code 3, change no register and quieten the trigger's result
ports. -/
def Obligations.ScNoOpsKeepEveryRegister : Prop :=
  (∀ id dt, decode (.scCmd 0#2 id dt) = .ok .scNop ∧ decode (.scCmd 3#2 id dt) = .ok .scRsv)
  ∧ ∀ s : State, ∃ t, exec .scNop s = .next t ∧ exec .scRsv s = .next t
    ∧ t.scn = s.scn ∧ t.trig = { trigAccepted := false, trigReason := .noReason }
    ∧ t.result = .silent ∧ encKept s t ∧ decKept s t ∧ restKept s t

/-- SC_TRIGGER (R209 to R211), code 1: AlreadyActive first, then UnknownScenarioId, each with no state
change; otherwise every register of SCN is as R210 gives it. -/
def Obligations.ScTriggerStartsOrRejects : Prop :=
  (∀ id dt, decode (.scCmd 1#2 id dt) = .ok (.scTrigger id))
  ∧ reasonCode .noReason = 0#2 ∧ reasonCode .alreadyActive = 1#2
  ∧ reasonCode .unknownScenarioId = 2#2
  ∧ ∀ (id : BitVec 8) (s : State), ∃ t, exec (.scTrigger id) s = .next t
    ∧ (s.scn.scnStatus = .active →
        t.scn = s.scn ∧ t.trig = { trigAccepted := false, trigReason := .alreadyActive })
    ∧ (s.scn.scnStatus ≠ .active → s.cfg.nScn ≤ id.toNat →
        t.scn = s.scn ∧ t.trig = { trigAccepted := false, trigReason := .unknownScenarioId })
    ∧ (s.scn.scnStatus ≠ .active → id.toNat < s.cfg.nScn →
        t.scn = { scnStatus := .active, scnId := id, elapsedMs := 0,
                  fired := List.replicate s.cfg.maxEntries false, curEvent := 0xFF#8,
                  settleMs := 0, ov := Vector.replicate 8 clearOv }
        ∧ t.trig = { trigAccepted := true, trigReason := .noReason })
    ∧ t.result = .trig t.trig ∧ encKept s t ∧ decKept s t ∧ restKept s t

/-- SC_TICK in idle changes nothing at all of SCN (R221). -/
def Obligations.ScTickInIdleChangesNothing : Prop :=
  ∀ (dt : U32) (s : State), s.scn.scnStatus = .idle →
    ∃ t, exec (.scTick dt) s = .next t ∧ t.scn = s.scn
      ∧ t.trig = { trigAccepted := false, trigReason := .noReason } ∧ t.result = .silent
      ∧ encKept s t ∧ decKept s t ∧ restKept s t

/-- SC_TICK in active (R222): the clock saturates; exactly the due entries that have not fired fire, in
index order; the last of them is the current event (an index beyond 8 bits, of which R49 and R222 state no
value, leaves the free value of log 27); their overrides merge channel by channel; the run
completes when the clock reaches the duration, and then every override is clear. The premise on
`fired` is R48's width with WF1 of R113. -/
def Obligations.ScTickInActiveFiresTheDue : Prop :=
  ∀ (dt now : U32) (s : State) (tl : Scenario) (due : List (Nat × Entry)),
    s.scn.scnStatus = .active → tl = timeline s.cfg s.scn.scnId →
    tl.entries.length ≤ s.scn.fired.length →
    now.toNat = min (s.scn.elapsedMs.toNat + dt.toNat) (2 ^ 32 - 1) →
    due = dueEntries now s.scn.fired tl →
    ∃ t, exec (.scTick dt) s = .next t
      ∧ t.scn.elapsedMs = now ∧ t.scn.scnId = s.scn.scnId
      ∧ t.scn.fired.length = s.scn.fired.length
      ∧ (∀ i, t.scn.fired.getD i false = true ↔
          s.scn.fired.getD i false = true
          ∨ ∃ e, tl.entries[i]? = some e ∧ e.offsetMs.toNat ≤ now.toNat)
      ∧ t.scn.curEvent = (match due.getLast? with
          | none => s.scn.curEvent
          | some p => if p.1 < 256 then BitVec.ofNat 8 p.1 else Config.wideEvent p.1)
      ∧ (now.toNat < tl.durationMs.toNat →
          t.scn.scnStatus = .active ∧ t.scn.settleMs = s.scn.settleMs
          ∧ ∀ c : Fin 8, t.scn.ov[c]
              = ((due.filter fun p => p.2.channel = c).map fun p => p.2.spec).foldl ovMerge s.scn.ov[c])
      ∧ (tl.durationMs.toNat ≤ now.toNat →
          t.scn.scnStatus = .complete ∧ t.scn.settleMs = 0 ∧ ∀ c : Fin 8, t.scn.ov[c] = clearOv)
      ∧ t.trig = { trigAccepted := false, trigReason := .noReason } ∧ t.result = .silent
      ∧ encKept s t ∧ decKept s t ∧ restKept s t

/-- SC_TICK in complete (R224): the settle delay is counted, and when it is over every register of the
run returns to its idle value; by R57 item 9 that is the reset value of every register. -/
def Obligations.ScTickInCompleteSettles : Prop :=
  ∀ (dt settle : U32) (s : State), s.scn.scnStatus = .complete →
    settle.toNat = min (s.scn.settleMs.toNat + dt.toNat) (2 ^ 32 - 1) →
    ∃ t, exec (.scTick dt) s = .next t
      ∧ (settle.toNat < s.cfg.settleMs.toNat → t.scn = { s.scn with settleMs := settle })
      ∧ (s.cfg.settleMs.toNat ≤ settle.toNat →
          t.scn = { scnStatus := .idle, scnId := 0xFF#8, elapsedMs := 0,
                    fired := List.replicate s.cfg.maxEntries false, curEvent := 0xFF#8,
                    settleMs := 0, ov := s.scn.ov })
      ∧ (ScnInv s.cfg s.scn → s.cfg.settleMs.toNat ≤ settle.toNat →
          t.scn = Scn.reset s.cfg.maxEntries)
      ∧ t.trig = { trigAccepted := false, trigReason := .noReason } ∧ t.result = .silent
      ∧ encKept s t ∧ decKept s t ∧ restKept s t

/-- SC_TICKS n dt is SC_TICK dt, `n` times (R124); with `n` = 0 nothing but the answer changes. -/
def Obligations.ScTicksIsItsExpansion : Prop :=
  ∀ (n : Nat) (dt : U32) (s : State), ∃ t u, exec (.scTicks n dt) s = .next t
    ∧ runOps (List.replicate n (.scTick dt)) s = some u ∧ t = { u with result := .silent }
    ∧ encKept s t ∧ decKept s t ∧ restKept s t

/-- How time is cut does not matter (R223): with ordered offsets, two sequences of ticks of the same sum,
the run still active before the last tick of each, leave SCN alike. The premise on `fired` is R48's width
with WF1 of R113. -/
def Obligations.TickSplitDoesNotMatter : Prop :=
  ∀ (as bs : List U32) (a b : U32) (s u v : State),
    s.scn.scnStatus = .active → offsetsOrdered (timeline s.cfg s.scn.scnId).entries = true →
    (timeline s.cfg s.scn.scnId).entries.length ≤ s.scn.fired.length →
    (as.map BitVec.toNat).sum + a.toNat = (bs.map BitVec.toNat).sum + b.toNat →
    runOps (as.map .scTick) s = some u → u.scn.scnStatus = .active →
    runOps (bs.map .scTick) s = some v → v.scn.scnStatus = .active →
    ∃ t w, exec (.scTick a) u = .next t ∧ exec (.scTick b) v = .next w ∧ t.scn = w.scn

/-- `ov_merge(old, spec)` (R203), field by field and bit by bit. -/
def Obligations.OvMergeReplacesSelectedFields : Prop :=
  ∀ (old spec new : OvSpec), new = ovMerge old spec →
    (∀ k, new.mask.getLsbD k = (old.mask.getLsbD k || spec.mask.getLsbD k))
    ∧ new.voltageMv = (if spec.mask.getLsbD 0 then spec.voltageMv else old.voltageMv)
    ∧ new.currentMa = (if spec.mask.getLsbD 1 then spec.currentMa else old.currentMa)
    ∧ new.temperatureDecic
      = (if spec.mask.getLsbD 2 then spec.temperatureDecic else old.temperatureDecic)
    ∧ new.stSet = (if spec.mask.getLsbD 3 then spec.stSet else old.stSet)
    ∧ new.stClr = (if spec.mask.getLsbD 3 then spec.stClr else old.stClr)
    ∧ (spec.mask = 0#4 → new = old)

/-- The state machine's transitions and no others (R200): a command or read changes `scn_status` only by
an accepted trigger, by a tick that completes or settles, or by RESET. -/
def Obligations.StatusHasOnlyItsTransitions : Prop :=
  ∀ (i : Instr) (s t : State), exec i s = .next t → i.format ≠ .pseudo →
    t.scn.scnStatus ≠ s.scn.scnStatus →
    i = .reset
    ∨ (∃ id : BitVec 8, i = .scTrigger id ∧ s.scn.scnStatus ≠ .active ∧ id.toNat < s.cfg.nScn
        ∧ t.scn.scnStatus = .active)
    ∨ (∃ dt : U32, i = .scTick dt ∧ s.scn.scnStatus = .active ∧ t.scn.scnStatus = .complete
        ∧ (timeline s.cfg s.scn.scnId).durationMs.toNat
          ≤ min (s.scn.elapsedMs.toNat + dt.toNat) (2 ^ 32 - 1))
    ∨ (∃ dt : U32, i = .scTick dt ∧ s.scn.scnStatus = .complete ∧ t.scn.scnStatus = .idle
        ∧ s.cfg.settleMs.toNat ≤ min (s.scn.settleMs.toNat + dt.toNat) (2 ^ 32 - 1))

/-- SC_STATUS (R230): the registers and the texts looked up with them, no state change; in idle, by the
invariants of R57, every text is empty and the time is 0. -/
def Obligations.ScStatusAnswersTheRun : Prop :=
  ∀ s : State, ∃ t v, exec .scStatus s = .next t ∧ t.result = .status v
    ∧ v.status = s.scn.scnStatus ∧ v.id = s.scn.scnId ∧ v.elapsed = s.scn.elapsedMs
    ∧ v.event = s.scn.curEvent ∧ elapsedSeconds v * 1000 = (s.scn.elapsedMs.toNat : Rat)
    ∧ (∀ x, s.scn.scnId ≠ 0xFF#8 → s.cfg.rom[s.scn.scnId.toNat]? = some x →
        v.name = x.name ∧ v.description = x.description
        ∧ ∀ e, s.scn.curEvent ≠ 0xFF#8 → x.entries[s.scn.curEvent.toNat]? = some e →
          v.currentEvent = e.eventText)
    ∧ (s.scn.scnId = 0xFF#8 → v.name = "" ∧ v.description = "")
    ∧ (s.scn.curEvent = 0xFF#8 → v.currentEvent = "")
    ∧ (ScnInv s.cfg s.scn → s.scn.scnStatus = .idle →
        v.name = "" ∧ v.description = "" ∧ v.currentEvent = "" ∧ v.elapsed = 0)
    ∧ encKept s t ∧ decKept s t ∧ scnKept s t ∧ restKept s t

/-- OV_READ (R231): exactly the channels whose mask is not 0, each with its spec, no state change; empty
whenever the run is not active, by R57 item 9. -/
def Obligations.OvReadListsTheOverridden : Prop :=
  ∀ s : State, ∃ t l, exec .ovRead s = .next t ∧ t.result = .overrides l
    ∧ (∀ (c : Fin 8) (o : OvSpec), (c, o) ∈ l ↔ o = s.scn.ov[c] ∧ o.mask ≠ 0#4)
    ∧ (ScnInv s.cfg s.scn → s.scn.scnStatus ≠ .active → l = [])
    ∧ encKept s t ∧ decKept s t ∧ scnKept s t ∧ restKept s t

/-- OV_APPLY (R232): field by field, the status bit by bit; with every override clear the nominal set
itself; no state change. -/
def Obligations.OvApplyReplacesFieldwise : Prop :=
  ∀ (nom : ChannelSet) (s : State), ∃ t eff, exec (.ovApply nom) s = .next t ∧ t.result = .eff eff
    ∧ (∀ c : Fin 8,
        eff[c].voltageMv
          = (if s.scn.ov[c].mask.getLsbD 0 then s.scn.ov[c].voltageMv else nom[c].voltageMv)
        ∧ eff[c].currentMa
          = (if s.scn.ov[c].mask.getLsbD 1 then s.scn.ov[c].currentMa else nom[c].currentMa)
        ∧ eff[c].temperatureDecic
          = (if s.scn.ov[c].mask.getLsbD 2 then s.scn.ov[c].temperatureDecic
              else nom[c].temperatureDecic)
        ∧ ∀ k < 8, eff[c].status.getLsbD k
          = (if s.scn.ov[c].mask.getLsbD 3 then
              (nom[c].status.getLsbD k && !s.scn.ov[c].stClr.getLsbD k)
                || s.scn.ov[c].stSet.getLsbD k
            else nom[c].status.getLsbD k))
    ∧ ((∀ c : Fin 8, s.scn.ov[c] = clearOv) → eff = nom)
    ∧ encKept s t ∧ decKept s t ∧ scnKept s t ∧ restKept s t

/-- OV_APPLY keeps validity (R233, WF2 of R113): with a table well formed as R113 says, in a build of any
MAX_ENTRIES, the overrides are in range right
after reset and every step keeps them so; with overrides in range a valid nominal set gives a valid
effective set. -/
def Obligations.OverridesStayInRange : Prop :=
  (wellFormedTable State.reset.cfg = true ∧ ∀ c : Fin 8, ovInRange State.reset.scn.ov[c] = true)
  ∧ (∀ s t : State, wellFormedTable s.cfg = true → (∀ c : Fin 8, ovInRange s.scn.ov[c] = true) →
      step s = .next t →
      wellFormedTable t.cfg = true ∧ ∀ c : Fin 8, ovInRange t.scn.ov[c] = true)
  ∧ ∀ (nom : ChannelSet) (s : State), validSet nom = true →
      (∀ c : Fin 8, ovInRange s.scn.ov[c] = true) →
      ∃ t eff, exec (.ovApply nom) s = .next t ∧ t.result = .eff eff ∧ validSet eff = true

/-! ### The whole block -/

/-- RESET (R300): every register of R26 to R51 at its reset value, whatever it held, and the result ports
quiet; the parameters stay (R301), and so do the bytes already emitted. -/
def Obligations.ResetGivesEveryRegisterItsValue : Prop :=
  decode (.rst 1#1) = .ok .reset
  ∧ (∀ p : InPorts, p.rst = 1#1 → p.requests = [.rst 1#1])
  ∧ ∀ s : State, ∃ t, exec .reset s = .next t
    ∧ t.enc = { encSet := Vector.replicate 8 ⟨0, 0, 0, 0⟩, encBusy := false, encIdx := 0,
                encXor := 0x00#8, encRangeWarn := false }
    ∧ t.dec = { rxWin := Vector.replicate 58 0x00#8, rxCnt := 0,
                snap := Vector.replicate 8 ⟨0, 0, 0, 0⟩, snapValid := false,
                linkStatus := .disconnected, silenceMs := 0, rxClockMs := 0, snapTimeMs := 0 }
    ∧ t.scn = { scnStatus := .idle, scnId := 0xFF#8, elapsedMs := 0,
                fired := List.replicate s.cfg.maxEntries false, curEvent := 0xFF#8, settleMs := 0,
                ov := Vector.replicate 8 ⟨0, 0, 0, 0, 0, 0⟩ }
    ∧ t.encOut = { encAck := false, txValid := false, txData := 0x00#8 }
    ∧ t.rxResult = .pending ∧ rxCode t.rxResult = 2#2
    ∧ t.trig = { trigAccepted := false, trigReason := .noReason }
    ∧ t.txStream = s.txStream ∧ t.cfg = s.cfg

/-- The model's reading of RESET where the spec says nothing (log 12, log 1): the rx stream starts over,
and the operations presented but not yet performed stay presented. -/
def Obligations.ResetStartsTheRxStreamOver : Prop :=
  ∀ s : State, ∃ t, exec .reset s = .next t ∧ t.rxStream = [] ∧ cursor t = 0
    ∧ t.pending = s.pending

/-- `rst` overrides the command ports (R119): with `rst` = 1 a step's ports are one RESET, whatever the
commands. -/
def Obligations.RstOverridesTheCommandPorts : Prop :=
  ∀ (p : InPorts) (s : State), p.rst = 1#1 → s.pending = [] →
    ∃ t, step (present p.requests s) = .next t ∧ exec .reset s = .next t

/-- With `rst` = 0 a step's ports are one command of each unit (R15), selected by the 2-bit command ports
alone (R115 to R117, R120). That the model performs the three commands of one step of R15 in three steps of
its own, in the order ENC, DEC, SCN, is the model's choice (log 1, DESIGN CHOICE); by UnitsCommute the order
has no consequence for any unit. -/
def Obligations.PortStepRunsOneCommandPerUnit : Prop :=
  ∀ (p : InPorts) (s : State), p.rst = 0#1 → s.pending = [] →
    ∃ t, runSteps 3 (present p.requests s) = some t
      ∧ runOps [decodeEncCmd p.encCmd p.encDin, decodeRxCmd p.rxCmd p.rxData p.rxDtMs,
          decodeScCmd p.scCmd p.scId p.scDtMs] s = some t

/-- Commands of different units commute (R15, R20): in either order they leave the same state, but for
the model's record of the last answer. -/
def Obligations.UnitsCommute : Prop :=
  ∀ (i j : Instr) (s : State),
    (i.format = .encCmd ∨ i.format = .rxCmd ∨ i.format = .scCmd) →
    (j.format = .encCmd ∨ j.format = .rxCmd ∨ j.format = .scCmd) → i.format ≠ j.format →
    ∃ t u, runOps [i, j] s = some t ∧ runOps [j, i] s = some u
      ∧ { t with result := .silent } = { u with result := .silent }

/-- No command of one unit writes a register of another unit (R20), a read writes no register (R69), and no
operation writes the parameters (R56). That the result ports of the other units, and of all units under a
read, hold as well is the model's reading (log 10, DEDUCED; U20 and R285's "the no-op rules" can be read
otherwise). That the streams and the presented operations stay is said of the model's own lists (log 12,
log 1). -/
def Obligations.UnitsWriteOnlyTheirOwn : Prop :=
  ∀ (i : Instr) (s t : State), exec i s = .next t →
    restKept s t
    ∧ (i.format = .encCmd → decKept s t ∧ scnKept s t)
    ∧ (i.format = .rxCmd → encKept s t ∧ scnKept s t)
    ∧ (i.format = .scCmd → encKept s t ∧ decKept s t)
    ∧ (i.format = .readPort → encKept s t ∧ decKept s t ∧ scnKept s t)

/-- The register files of R52 (`enc_set`, `snap`, `ov`, `rx_win`) and the flags of R53 (`enc_busy`,
`enc_range_warn`, `snap_valid`, `link_status`, `fired`), with `snap_time_ms`, have the writers the two rules
list, RESET, and the pseudo-operations that expand to those writers, and no others. `enc_busy` is set by
ENC_LOAD only and cleared by the ENC_EMIT at offset 57 or by RESET. The status bits in R53's first row are
bits of `enc_set` and `snap`. -/
def Obligations.RegistersHaveOnlyTheirWriters : Prop :=
  ∀ (i : Instr) (s t : State), exec i s = .next t →
    (t.enc.encSet ≠ s.enc.encSet ∨ t.enc.encRangeWarn ≠ s.enc.encRangeWarn →
      i = .reset ∨ (s.enc.encBusy = false
        ∧ ((∃ set, i = .encLoad set) ∨ (∃ set, i = .encode set) ∨ ∃ dt nom, i = .produce dt nom)))
    ∧ (s.enc.encBusy = false → t.enc.encBusy = true → ∃ set, i = .encLoad set)
    ∧ (s.enc.encBusy = true → t.enc.encBusy = false →
      i = .reset ∨ (i = .encEmit ∧ s.enc.encIdx.val = 57))
    ∧ (t.dec.rxWin ≠ s.dec.rxWin →
      i = .reset ∨ (∃ b, i = .rxByte b) ∨ ∃ bs, i = .rxBytes bs)
    ∧ (t.dec.snap ≠ s.dec.snap ∨ t.dec.snapTimeMs ≠ s.dec.snapTimeMs
        ∨ t.dec.snapValid ≠ s.dec.snapValid →
      i = .reset ∨ (∃ b, i = .rxByte b ∧ t.rxResult = .accepted)
      ∨ ∃ bs l, i = .rxBytes bs ∧ t.result = .rxs l ∧ RxResult.accepted ∈ l)
    ∧ (t.dec.linkStatus ≠ s.dec.linkStatus →
      i = .reset ∨ (∃ dt, i = .rxTime dt ∧ t.dec.linkStatus = .disconnected)
      ∨ (t.dec.linkStatus = .connected
        ∧ ((∃ b, i = .rxByte b ∧ t.rxResult = .accepted)
          ∨ ∃ bs l, i = .rxBytes bs ∧ t.result = .rxs l ∧ RxResult.accepted ∈ l)))
    ∧ (t.scn.ov ≠ s.scn.ov ∨ t.scn.fired ≠ s.scn.fired →
      i = .reset ∨ (∃ id, i = .scTrigger id) ∨ (∃ dt, i = .scTick dt)
      ∨ (∃ n dt, i = .scTicks n dt) ∨ ∃ dt nom, i = .produce dt nom)

/-- The invariants of R57 hold right after reset, for the default build and for every legal one. -/
def Obligations.ResetMeetsTheInvariants : Prop :=
  Inv State.reset ∧ ∀ cfg : Config, legalConfig cfg = true → Inv (State.resetOf cfg)

/-- Every step keeps the invariants of R57, with the reading of the window and of the tx stream
(R60, R62), from every state that meets them. -/
def Obligations.StepKeepsTheInvariants : Prop :=
  ∀ s t : State, Inv s → step s = .next t → Inv t

/-- No failure stops the block (R273): every operation is enabled in every state, and every step, whatever
is presented, answers a next state; none ends in a fault or a refusal. -/
def Obligations.EveryOperationIsEnabled : Prop :=
  (∀ (i : Instr) (s : State), ∃ t, exec i s = .next t)
  ∧ ∀ s : State, ∃ t, step s = .next t

/-! ### Presenting, decoding, stepping -/

/-- Decode and encode agree on every well-formed operation, every operand at every value. -/
def Obligations.DecodeOfEncode : Prop :=
  ∀ i : Instr, i.wellFormed = true → decode (encode i) = .ok i

/-- What decodes is well formed, drives the ports it came from, and its own encoding stands for it. -/
def Obligations.DecodedOperationsReencode : Prop :=
  ∀ (r : Request) (i : Instr), decode r = .ok i →
    i.wellFormed = true ∧ (encode i).format = r.format ∧ decode (encode i) = .ok i

/-- A few words of the code tables (R115 to R117, R119) decode to the operations they stand for. -/
def Obligations.CodeWordsDecode : Prop :=
  (∀ din, decode (.encCmd 0b00#2 din) = .ok .encNop)
  ∧ (∀ din, decode (.encCmd 0b10#2 din) = .ok .encEmit)
  ∧ (∀ dt, decode (.rxCmd 0b01#2 0x3E#8 dt) = .ok (.rxByte 0x3E#8))
  ∧ (∀ b, decode (.rxCmd 0b10#2 b 300#32) = .ok (.rxTime 300#32))
  ∧ (∀ dt, decode (.scCmd 0b01#2 0x01#8 dt) = .ok (.scTrigger 0x01#8))
  ∧ (∀ id, decode (.scCmd 0b10#2 id 100#32) = .ok (.scTick 100#32))
  ∧ (∀ id dt, decode (.scCmd 0b11#2 id dt) = .ok .scRsv)
  ∧ decode (.rst 0b1#1) = .ok .reset

/-- A step runs the oldest presented operation, with that request taken off the list (log 1). -/
def Obligations.StepRunsTheDecodedOperation : Prop :=
  ∀ (s : State) (r : Request) (rest : List Request) (i : Instr),
    s.pending = r :: rest → decode r = .ok i → i.wellFormed = true →
    step s = exec i { s with pending := rest }

/-- The model's choice (log 4, log 5). With nothing presented a step holds the whole state, as R285 has a
unit do that is given no command. Only two requests ask for no operation, `rst` at 0 alone (R119) and
RX_BYTES of no byte (R124), and the step on them answers a next state: of the first, that of the three
no-op commands (R285's "the no-op rules"); of the second, an empty expansion, which answers the empty list
of results. -/
def Obligations.StepHoldsWithoutAnOperation : Prop :=
  (∀ (r : Request) (e : DecodeError), decode r = .error e ↔
    (r = .rst 0#1 ∧ e = .rstLow) ∨ (r = .pseudoRxBytes [] ∧ e = .noBytes))
  ∧ ∀ s : State, (s.pending = [] → step s = .next s)
    ∧ ∀ rest, (s.pending = .rst 0#1 :: rest →
        ∃ t, step s = .next t ∧ registersKept s t
          ∧ runOps [.encNop, .rxNop, .scNop] { s with pending := rest } = some t)
      ∧ (s.pending = .pseudoRxBytes [] :: rest →
        step s = .next { s with pending := rest, result := .rxs [] })

/-- The model's choice (log 3): a table word stored where the step looks for its next operation is the
operation the very next step performs. -/
def Obligations.FetchWordIsTheNextOperation : Prop :=
  ∀ (s : State) (nbits w : Nat) (i : Instr), decodeTableWord nbits w = some i →
    step (s.withFetchWord nbits w) = exec i s

/-- The engineering units are exact rationals (R98): scaling back gives the integer held. -/
def Obligations.EngineeringUnitsAreExact : Prop :=
  (∀ r : ChRec, volts r * 1000 = (r.voltageMv.toNat : Rat)
    ∧ amperes r * 1000 = (r.currentMa.toNat : Rat)
    ∧ celsius r * 10 = (r.temperatureDecic.toInt : Rat))
  ∧ ∀ ms : U32, seconds ms * 1000 = (ms.toNat : Rat)
end

