-- ==== Sys2Proof/Laws/Bytes.lean ====
section
/-! SUPPORT. Lemmas on checksums, packings and frames. -/

namespace Sys2Proof.Machine

/-! ### Checksums (R11) -/

@[simp] theorem xor8_nil : xor8 [] = 0#8 := rfl

/-- The running checksum: one more byte is one more exclusive-or. -/
@[simp] theorem xor8_concat (l : List Byte) (b : Byte) : xor8 (l ++ [b]) = xor8 l ^^^ b := by
  simp [xor8]

theorem xor8_foldl (l : List Byte) (a : Byte) : l.foldl (fun acc b => acc ^^^ b) a = a ^^^ xor8 l := by
  induction l generalizing a with
  | nil => simp
  | cons b l ih =>
    simp only [xor8, List.foldl_cons] at ih ⊢
    rw [ih, ih (0#8 ^^^ b)]
    simp [BitVec.xor_assoc]

@[simp] theorem xor8_cons (b : Byte) (l : List Byte) : xor8 (b :: l) = b ^^^ xor8 l := by
  rw [xor8, List.foldl_cons, xor8_foldl]
  simp

@[simp] theorem xor8_append (l m : List Byte) : xor8 (l ++ m) = xor8 l ^^^ xor8 m := by
  induction l with
  | nil => simp
  | cons b l ih => simp [ih, BitVec.xor_assoc]

/-! ### Sets as lists -/

/-- A byte of a buffer at an offset it has. -/
theorem byteAt_some {l : List Byte} {i : Nat} (h : i < l.length) : l[i]? = some (byteAt l i) := by
  simp [byteAt, List.getD_eq_getElem?_getD, h]

/-- The eight elements of a vector of 8, in order. -/
theorem toList_eight {α : Type} (v : Vector α 8) :
    v.toList = [v[0], v[1], v[2], v[3], v[4], v[5], v[6], v[7]] := by
  apply List.ext_getElem
  · simp
  · intro i h _
    have : i < 8 := by simpa using h
    interval_cases i <;> simp

/-- Two vectors of 8 with the same elements are the same. -/
theorem ext_eight {α : Type} {u v : Vector α 8} (h : ∀ c : Fin 8, u[c] = v[c]) : u = v := by
  apply Vector.ext
  intro i hi
  exact h ⟨i, hi⟩

@[simp] theorem canon_get (s : ChannelSet) (c : Fin 8) : (canon s)[c] = canonRec s[c] := by
  simp [canon]

@[simp] theorem parse_get (f : List Byte) (c : Fin 8) : (parse f)[c] = parseRec f (1 + 7 * c.val) := by
  simp [parse]

@[simp] theorem applyOvs_get (ov : Vector OvSpec 8) (nom : ChannelSet) (c : Fin 8) :
    (applyOvs ov nom)[c] = applyRec ov[c] nom[c] := by
  simp [applyOvs]

@[simp] theorem zeroSet_get (c : Fin 8) : zeroSet[c] = zeroRec := by
  simp [zeroSet]

@[simp] theorem clearOvs_get (c : Fin 8) : clearOvs[c] = clearOv := by
  simp [clearOvs]

/-! ### Packings (R92, R102) -/

/-- The record unpacked from its packing is the record. -/
@[simp] theorem unpackRec_packRec (r : ChRec) : unpackRec (packRec r) = r := by
  cases r
  simp only [unpackRec, packRec, ChRec.mk.injEq]
  refine ⟨?_, ?_, ?_, ?_⟩ <;>
    (apply BitVec.eq_of_getLsbD_eq
     intro j hj
     simp only [BitVec.getLsbD_extractLsb', BitVec.getLsbD_append, hj, decide_true, Bool.true_and]
     split_ifs <;> first | omega | exact congrArg _ (by omega))

/-- The set unpacked from the lanes of a port is the set that was packed into them. -/
@[simp] theorem unpackLanes_packLanes (s : ChannelSet) : unpackLanes (packLanes s) = s := by
  apply ext_eight
  intro c
  simp [unpackLanes, packLanes]

/-! ### Byte order (R65, R66) -/

/-- A 16-bit field is the pair of its low and its high byte. -/
@[simp] theorem le16_lo_hi (w : U16) : le16 (loByte w) (hiByte w) = w := by
  apply BitVec.eq_of_getLsbD_eq
  intro j hj
  simp only [le16, loByte, hiByte, BitVec.getLsbD_append, BitVec.getLsbD_extractLsb']
  split_ifs with h
  · simp [h]
  · have h1 : j - 8 < 8 := by omega
    have h2 : 8 + (j - 8) = j := by omega
    simp [h1, h2]

@[simp] theorem carriedStatus_twice (st : Byte) : carriedStatus (carriedStatus st) = carriedStatus st := by
  simp [carriedStatus, BitVec.and_assoc]

/-! ### Frames (R91, R130, R131) -/

@[simp] theorem wireBytes_length (r : ChRec) : (wireBytes r).length = 7 := rfl

@[simp] theorem frameBody_length (s : ChannelSet) : (frameBody s).length = 57 := by
  simp [frameBody, toList_eight]

@[simp] theorem frame_length (s : ChannelSet) : (frame s).length = 58 := by
  simp [frame]

/-- Up to offset 57 a frame is its header and records. -/
theorem frame_take (s : ChannelSet) {i : Nat} (h : i ≤ 57) :
    (frame s).take i = (frameBody s).take i := by
  simp [frame, List.take_append, Nat.sub_eq_zero_of_le h]

theorem frame_take_57 (s : ChannelSet) : (frame s).take 57 = frameBody s := by
  rw [frame_take s (Nat.le_refl 57)]
  exact List.take_of_length_le (by simp)

/-- The header is at offset 0. -/
@[simp] theorem frame_header (s : ChannelSet) : (frame s)[0]? = some HEADER := rfl

/-- The checksum is at offset 57. -/
@[simp] theorem frame_checksum (s : ChannelSet) : (frame s)[57]? = some (xor8 (frameBody s)) := by
  rw [frame, List.getElem?_append_right (by simp)]
  simp

/-- Byte `k` of channel `c`'s record is at offset `1 + 7*c + k` (R70). -/
theorem frame_record (s : ChannelSet) (c : Fin 8) {k : Nat} (hk : k < 7) :
    (frame s)[1 + 7 * c.val + k]? = (wireBytes s[c])[k]? := by
  have hc := c.isLt
  rw [frame, List.getElem?_append_left (by simp; omega)]
  rw [frameBody, toList_eight]
  fin_cases c <;> interval_cases k <;> rfl

/-- Byte `k` of a record by its packing is byte `k` by its fields (R92, R97). -/
theorem wireByte_eq (r : ChRec) {k : Nat} (hk : k < 7) : (wireBytes r)[k]? = some (wireByte r k) := by
  have key : ∀ j, j < 6 → (wireBytes r)[j]? = some ((packRec r).extractLsb' (8 * j) 8) := by
    intro j hj
    interval_cases j <;>
      (simp only [wireBytes, List.getElem?_cons_zero, List.getElem?_cons_succ, Option.some.injEq, loByte,
        hiByte, packRec]
       ext i hi
       simp only [BitVec.getElem_extractLsb', BitVec.getLsbD_append]
       split_ifs <;> first | omega | rfl | exact congrArg _ (by omega))
  by_cases h : k < 6
  · simp [key k h, wireByte, h]
  · have : k = 6 := by omega
    subst this
    rfl

/-- `fbyte(s, i)` is byte `i` of the frame (R131). -/
theorem frame_fbyte (s : ChannelSet) {i : Nat} (hi : i < 57) : (frame s)[i]? = some (fbyte s i) := by
  by_cases h : i = 0
  · subst h
    rfl
  · obtain ⟨c, k, hc, hk, rfl⟩ : ∃ c k, c < 8 ∧ k < 7 ∧ i = 1 + 7 * c + k :=
      ⟨(i - 1) / 7, (i - 1) % 7, by omega, by omega, by omega⟩
    have h1 : (1 + 7 * c + k - 1) / 7 = c := by omega
    have h2 : (1 + 7 * c + k - 1) % 7 = k := by omega
    have h3 : Fin.ofNat 8 c = ⟨c, hc⟩ := Fin.ext (Nat.mod_eq_of_lt hc)
    have h4 : fbyte s (1 + 7 * c + k) = wireByte s[(⟨c, hc⟩ : Fin 8)] k := by
      simp only [fbyte, if_neg h, h1, h2, h3]
    rw [h4, ← wireByte_eq _ hk]
    exact frame_record s ⟨c, hc⟩ hk

/-- The checksum grows by one `fbyte` per offset. -/
theorem xor8_frame_take_succ (s : ChannelSet) {i : Nat} (hi : i < 57) :
    xor8 ((frame s).take (i + 1)) = xor8 ((frame s).take i) ^^^ fbyte s i := by
  rw [List.take_add_one, frame_fbyte s hi]
  simp

/-- The frame up to offset `i` and then `fbyte(s, i)` is the frame up to `i + 1`. -/
theorem frame_take_succ (s : ChannelSet) {i : Nat} (hi : i < 57) :
    (frame s).take (i + 1) = (frame s).take i ++ [fbyte s i] := by
  rw [List.take_add_one, frame_fbyte s hi]
  rfl

end Sys2Proof.Machine
end

