-- ==== Sys2Proof/Laws/State.lean ====
section
/-! SUPPORT. One lemma per field per update of State, each true by unfolding, so that no proof unfolds an
update. -/

namespace Sys2Proof.Machine

section
variable (s : State)

@[simp] theorem State.setEnc_cfg (e : Enc) (o : EncOut) : (s.setEnc e o).cfg = s.cfg := rfl
@[simp] theorem State.setEnc_enc (e : Enc) (o : EncOut) : (s.setEnc e o).enc = e := rfl
@[simp] theorem State.setEnc_encOut (e : Enc) (o : EncOut) : (s.setEnc e o).encOut = o := rfl
@[simp] theorem State.setEnc_dec (e : Enc) (o : EncOut) : (s.setEnc e o).dec = s.dec := rfl
@[simp] theorem State.setEnc_rxResult (e : Enc) (o : EncOut) : (s.setEnc e o).rxResult = s.rxResult := rfl
@[simp] theorem State.setEnc_scn (e : Enc) (o : EncOut) : (s.setEnc e o).scn = s.scn := rfl
@[simp] theorem State.setEnc_trig (e : Enc) (o : EncOut) : (s.setEnc e o).trig = s.trig := rfl
@[simp] theorem State.setEnc_txStream (e : Enc) (o : EncOut) : (s.setEnc e o).txStream = s.txStream := rfl
@[simp] theorem State.setEnc_rxStream (e : Enc) (o : EncOut) : (s.setEnc e o).rxStream = s.rxStream := rfl
@[simp] theorem State.setEnc_result (e : Enc) (o : EncOut) : (s.setEnc e o).result = s.result := rfl
@[simp] theorem State.setEnc_pending (e : Enc) (o : EncOut) : (s.setEnc e o).pending = s.pending := rfl

@[simp] theorem State.setDec_cfg (d : Dec) (r : RxResult) : (s.setDec d r).cfg = s.cfg := rfl
@[simp] theorem State.setDec_enc (d : Dec) (r : RxResult) : (s.setDec d r).enc = s.enc := rfl
@[simp] theorem State.setDec_encOut (d : Dec) (r : RxResult) : (s.setDec d r).encOut = s.encOut := rfl
@[simp] theorem State.setDec_dec (d : Dec) (r : RxResult) : (s.setDec d r).dec = d := rfl
@[simp] theorem State.setDec_rxResult (d : Dec) (r : RxResult) : (s.setDec d r).rxResult = r := rfl
@[simp] theorem State.setDec_scn (d : Dec) (r : RxResult) : (s.setDec d r).scn = s.scn := rfl
@[simp] theorem State.setDec_trig (d : Dec) (r : RxResult) : (s.setDec d r).trig = s.trig := rfl
@[simp] theorem State.setDec_txStream (d : Dec) (r : RxResult) : (s.setDec d r).txStream = s.txStream := rfl
@[simp] theorem State.setDec_rxStream (d : Dec) (r : RxResult) : (s.setDec d r).rxStream = s.rxStream := rfl
@[simp] theorem State.setDec_result (d : Dec) (r : RxResult) : (s.setDec d r).result = s.result := rfl
@[simp] theorem State.setDec_pending (d : Dec) (r : RxResult) : (s.setDec d r).pending = s.pending := rfl

@[simp] theorem State.setScn_cfg (c : Scn) (t : TrigOut) : (s.setScn c t).cfg = s.cfg := rfl
@[simp] theorem State.setScn_enc (c : Scn) (t : TrigOut) : (s.setScn c t).enc = s.enc := rfl
@[simp] theorem State.setScn_encOut (c : Scn) (t : TrigOut) : (s.setScn c t).encOut = s.encOut := rfl
@[simp] theorem State.setScn_dec (c : Scn) (t : TrigOut) : (s.setScn c t).dec = s.dec := rfl
@[simp] theorem State.setScn_rxResult (c : Scn) (t : TrigOut) : (s.setScn c t).rxResult = s.rxResult := rfl
@[simp] theorem State.setScn_scn (c : Scn) (t : TrigOut) : (s.setScn c t).scn = c := rfl
@[simp] theorem State.setScn_trig (c : Scn) (t : TrigOut) : (s.setScn c t).trig = t := rfl
@[simp] theorem State.setScn_txStream (c : Scn) (t : TrigOut) : (s.setScn c t).txStream = s.txStream := rfl
@[simp] theorem State.setScn_rxStream (c : Scn) (t : TrigOut) : (s.setScn c t).rxStream = s.rxStream := rfl
@[simp] theorem State.setScn_result (c : Scn) (t : TrigOut) : (s.setScn c t).result = s.result := rfl
@[simp] theorem State.setScn_pending (c : Scn) (t : TrigOut) : (s.setScn c t).pending = s.pending := rfl

@[simp] theorem State.appendTx_cfg (b : Byte) : (s.appendTx b).cfg = s.cfg := rfl
@[simp] theorem State.appendTx_enc (b : Byte) : (s.appendTx b).enc = s.enc := rfl
@[simp] theorem State.appendTx_encOut (b : Byte) : (s.appendTx b).encOut = s.encOut := rfl
@[simp] theorem State.appendTx_dec (b : Byte) : (s.appendTx b).dec = s.dec := rfl
@[simp] theorem State.appendTx_rxResult (b : Byte) : (s.appendTx b).rxResult = s.rxResult := rfl
@[simp] theorem State.appendTx_scn (b : Byte) : (s.appendTx b).scn = s.scn := rfl
@[simp] theorem State.appendTx_trig (b : Byte) : (s.appendTx b).trig = s.trig := rfl
@[simp] theorem State.appendTx_txStream (b : Byte) : (s.appendTx b).txStream = s.txStream ++ [b] := rfl
@[simp] theorem State.appendTx_rxStream (b : Byte) : (s.appendTx b).rxStream = s.rxStream := rfl
@[simp] theorem State.appendTx_result (b : Byte) : (s.appendTx b).result = s.result := rfl
@[simp] theorem State.appendTx_pending (b : Byte) : (s.appendTx b).pending = s.pending := rfl

@[simp] theorem State.appendRx_cfg (b : Byte) : (s.appendRx b).cfg = s.cfg := rfl
@[simp] theorem State.appendRx_enc (b : Byte) : (s.appendRx b).enc = s.enc := rfl
@[simp] theorem State.appendRx_encOut (b : Byte) : (s.appendRx b).encOut = s.encOut := rfl
@[simp] theorem State.appendRx_dec (b : Byte) : (s.appendRx b).dec = s.dec := rfl
@[simp] theorem State.appendRx_rxResult (b : Byte) : (s.appendRx b).rxResult = s.rxResult := rfl
@[simp] theorem State.appendRx_scn (b : Byte) : (s.appendRx b).scn = s.scn := rfl
@[simp] theorem State.appendRx_trig (b : Byte) : (s.appendRx b).trig = s.trig := rfl
@[simp] theorem State.appendRx_txStream (b : Byte) : (s.appendRx b).txStream = s.txStream := rfl
@[simp] theorem State.appendRx_rxStream (b : Byte) : (s.appendRx b).rxStream = s.rxStream ++ [b] := rfl
@[simp] theorem State.appendRx_result (b : Byte) : (s.appendRx b).result = s.result := rfl
@[simp] theorem State.appendRx_pending (b : Byte) : (s.appendRx b).pending = s.pending := rfl

@[simp] theorem State.answer_cfg (r : Result) : (s.answer r).cfg = s.cfg := rfl
@[simp] theorem State.answer_enc (r : Result) : (s.answer r).enc = s.enc := rfl
@[simp] theorem State.answer_encOut (r : Result) : (s.answer r).encOut = s.encOut := rfl
@[simp] theorem State.answer_dec (r : Result) : (s.answer r).dec = s.dec := rfl
@[simp] theorem State.answer_rxResult (r : Result) : (s.answer r).rxResult = s.rxResult := rfl
@[simp] theorem State.answer_scn (r : Result) : (s.answer r).scn = s.scn := rfl
@[simp] theorem State.answer_trig (r : Result) : (s.answer r).trig = s.trig := rfl
@[simp] theorem State.answer_txStream (r : Result) : (s.answer r).txStream = s.txStream := rfl
@[simp] theorem State.answer_rxStream (r : Result) : (s.answer r).rxStream = s.rxStream := rfl
@[simp] theorem State.answer_result (r : Result) : (s.answer r).result = r := rfl
@[simp] theorem State.answer_pending (r : Result) : (s.answer r).pending = s.pending := rfl

@[simp] theorem takeRequest_cfg (rest : List Request) : (takeRequest rest s).cfg = s.cfg := rfl
@[simp] theorem takeRequest_enc (rest : List Request) : (takeRequest rest s).enc = s.enc := rfl
@[simp] theorem takeRequest_encOut (rest : List Request) : (takeRequest rest s).encOut = s.encOut := rfl
@[simp] theorem takeRequest_dec (rest : List Request) : (takeRequest rest s).dec = s.dec := rfl
@[simp] theorem takeRequest_rxResult (rest : List Request) : (takeRequest rest s).rxResult = s.rxResult := rfl
@[simp] theorem takeRequest_scn (rest : List Request) : (takeRequest rest s).scn = s.scn := rfl
@[simp] theorem takeRequest_trig (rest : List Request) : (takeRequest rest s).trig = s.trig := rfl
@[simp] theorem takeRequest_txStream (rest : List Request) : (takeRequest rest s).txStream = s.txStream := rfl
@[simp] theorem takeRequest_rxStream (rest : List Request) : (takeRequest rest s).rxStream = s.rxStream := rfl
@[simp] theorem takeRequest_result (rest : List Request) : (takeRequest rest s).result = s.result := rfl
@[simp] theorem takeRequest_pending (rest : List Request) : (takeRequest rest s).pending = rest := rfl

@[simp] theorem present_cfg (rs : List Request) : (present rs s).cfg = s.cfg := rfl
@[simp] theorem present_enc (rs : List Request) : (present rs s).enc = s.enc := rfl
@[simp] theorem present_encOut (rs : List Request) : (present rs s).encOut = s.encOut := rfl
@[simp] theorem present_dec (rs : List Request) : (present rs s).dec = s.dec := rfl
@[simp] theorem present_rxResult (rs : List Request) : (present rs s).rxResult = s.rxResult := rfl
@[simp] theorem present_scn (rs : List Request) : (present rs s).scn = s.scn := rfl
@[simp] theorem present_trig (rs : List Request) : (present rs s).trig = s.trig := rfl
@[simp] theorem present_txStream (rs : List Request) : (present rs s).txStream = s.txStream := rfl
@[simp] theorem present_rxStream (rs : List Request) : (present rs s).rxStream = s.rxStream := rfl
@[simp] theorem present_result (rs : List Request) : (present rs s).result = s.result := rfl
@[simp] theorem present_pending (rs : List Request) : (present rs s).pending = s.pending ++ rs := rfl

@[simp] theorem resetBlock_cfg : (resetBlock s).cfg = s.cfg := rfl
@[simp] theorem resetBlock_enc : (resetBlock s).enc = Enc.reset := rfl
@[simp] theorem resetBlock_encOut : (resetBlock s).encOut = EncOut.quiet := rfl
@[simp] theorem resetBlock_dec : (resetBlock s).dec = Dec.reset := rfl
@[simp] theorem resetBlock_rxResult : (resetBlock s).rxResult = .pending := rfl
@[simp] theorem resetBlock_scn : (resetBlock s).scn = Scn.reset s.cfg.maxEntries := rfl
@[simp] theorem resetBlock_trig : (resetBlock s).trig = TrigOut.quiet := rfl
@[simp] theorem resetBlock_txStream : (resetBlock s).txStream = s.txStream := rfl
@[simp] theorem resetBlock_rxStream : (resetBlock s).rxStream = [] := rfl
@[simp] theorem resetBlock_result : (resetBlock s).result = .silent := rfl
@[simp] theorem resetBlock_pending : (resetBlock s).pending = s.pending := rfl

end

end Sys2Proof.Machine
end

