-- ==== Sys2Proof/Laws/Ops.lean ====
section
/-! SUPPORT. For each shared operation, once, everything it can do. -/

namespace Sys2Proof.Machine

/-! ### ENC -/

/-- ENC_LOAD is accepted while idle and changes no register while busy (R134). -/
theorem loadSet_cases (set : ChannelSet) (s : State) :
    (s.enc.encBusy = false
      ∧ loadSet set s
        = (s.setEnc (loadedEnc set) { EncOut.quiet with encAck := true }).answer (.ack true))
    ∨ (s.enc.encBusy = true
      ∧ loadSet set s = (s.setEnc s.enc EncOut.quiet).answer (.ack false)) := by
  cases h : s.enc.encBusy <;> simp [loadSet, h]

/-- ENC_EMIT emits nothing while idle, a header or record byte below offset 57, the checksum register
at offset 57 (R135, R136). -/
theorem emitByte_cases (s : State) :
    (s.enc.encBusy = false ∧ emitByte s = (s.setEnc s.enc EncOut.quiet).answer (.tx none))
    ∨ (s.enc.encBusy = true ∧ s.enc.encIdx.val < 57
      ∧ emitByte s
        = ((s.setEnc
              { s.enc with
                encXor := s.enc.encXor ^^^ fbyte s.enc.encSet s.enc.encIdx.val
                encIdx := Fin.ofNat 58 (s.enc.encIdx.val + 1) }
              { encAck := false, txValid := true, txData := fbyte s.enc.encSet s.enc.encIdx.val }
            ).appendTx (fbyte s.enc.encSet s.enc.encIdx.val)).answer
            (.tx (some (fbyte s.enc.encSet s.enc.encIdx.val))))
    ∨ (s.enc.encBusy = true ∧ s.enc.encIdx.val = 57
      ∧ emitByte s
        = ((s.setEnc { s.enc with encBusy := false, encIdx := 0, encXor := 0x00#8 }
              { encAck := false, txValid := true, txData := s.enc.encXor }).appendTx
            s.enc.encXor).answer (.tx (some s.enc.encXor))) := by
  have hlt := s.enc.encIdx.isLt
  cases hb : s.enc.encBusy with
  | false => simp [emitByte, hb]
  | true =>
    by_cases h : s.enc.encIdx.val < 57
    · simp [emitByte, emittedEnc, nextTxByte, hb, h]
    · have : s.enc.encIdx.val = 57 := by omega
      simp [emitByte, emittedEnc, nextTxByte, hb, this]

/-- ENC_EMIT leaves DEC, SCN, the parameters and the presented operations alone. -/
theorem emitByte_frame (s : State) :
    decKept s (emitByte s) ∧ scnKept s (emitByte s) ∧ restKept s (emitByte s) := by
  rcases emitByte_cases s with ⟨_, h⟩ | ⟨_, _, h⟩ | ⟨_, _, h⟩ <;>
    simp [h, decKept, scnKept, restKept]

/-- ENC_LOAD leaves DEC, SCN, the parameters and the presented operations alone. -/
theorem loadSet_frame (set : ChannelSet) (s : State) :
    decKept s (loadSet set s) ∧ scnKept s (loadSet set s) ∧ restKept s (loadSet set s) := by
  rcases loadSet_cases set s with ⟨_, h⟩ | ⟨_, h⟩ <;> simp [h, decKept, scnKept, restKept]

@[simp] theorem emitBytes_zero (s : State) : emitBytes 0 s = ([], s) := rfl

/-- One more ENC_EMIT in a row. -/
theorem emitBytes_succ (n : Nat) (s : State) :
    emitBytes (n + 1) s
      = ((if (emitByte s).encOut.txValid then [(emitByte s).encOut.txData] else [])
          ++ (emitBytes n (emitByte s)).1, (emitBytes n (emitByte s)).2) := rfl

/-- ENC_EMIT in a row leaves DEC, SCN, the parameters and the presented operations alone. -/
theorem emitBytes_frame (n : Nat) (s : State) :
    decKept s (emitBytes n s).2 ∧ scnKept s (emitBytes n s).2 ∧ restKept s (emitBytes n s).2 := by
  induction n generalizing s with
  | zero => simp [decKept, scnKept, restKept]
  | succ n ih =>
    have first := emitByte_frame s
    have rest := ih (emitByte s)
    rw [emitBytes_succ]
    simp only [decKept, scnKept, restKept] at first rest ⊢
    simp [first, rest]

/-- ENCODE while ENC is busy is its refused load (log 14). -/
theorem encodeSet_busy (set : ChannelSet) (s : State) (h : s.enc.encBusy = true) :
    encodeSet set s = loadSet set s := by
  simp [encodeSet, loadSet, h, EncOut.quiet]

/-- ENCODE leaves DEC, SCN, the parameters and the presented operations alone. -/
theorem encodeSet_frame (set : ChannelSet) (s : State) :
    decKept s (encodeSet set s) ∧ scnKept s (encodeSet set s) ∧ restKept s (encodeSet set s) := by
  have load := loadSet_frame set s
  have emit := emitBytes_frame FRAME_LEN (loadSet set s)
  unfold encodeSet
  dsimp only
  split_ifs
  · simp only [decKept, scnKept, restKept] at load emit ⊢
    simp [load, emit]
  · exact load

/-! ### DEC -/

@[simp] theorem windowWith_length (d : Dec) (b : Byte) :
    (windowWith d b).length = d.rxCnt.val + 1 := by
  simp [windowWith]

/-- The outcomes of `decode` and when each occurs, in the order of the checks (R162, R267). -/
theorem decodeFrame_cases (buf : List Byte) :
    (buf.length ≠ 58 ∧ decodeFrame buf = .badLength)
    ∨ (buf.length = 58 ∧ hdrOk buf = false ∧ decodeFrame buf = .badHeader)
    ∨ (buf.length = 58 ∧ hdrOk buf = true ∧ ckOk buf = false ∧ decodeFrame buf = .checksumMismatch)
    ∨ (buf.length = 58 ∧ hdrOk buf = true ∧ ckOk buf = true ∧ decodeFrame buf = .ok (parse buf)) := by
  by_cases hl : buf.length = 58
  · cases hh : hdrOk buf
    · simp [decodeFrame, hl, hh]
    · cases hc : ckOk buf <;> simp [decodeFrame, hl, hh, hc]
  · simp [decodeFrame, hl]

/-- RX_BYTE waits, accepts or moves the cursor by one (R172 to R174). -/
theorem receive_cases (d : Dec) (b : Byte) :
    (d.rxCnt.val < 57 ∧ receive d b = (pendDec d b, .pending))
    ∨ (d.rxCnt.val = 57 ∧ hdrOk (windowWith d b) = true ∧ ckOk (windowWith d b) = true
      ∧ receive d b = (acceptDec d b (parse (windowWith d b)), .accepted))
    ∨ (d.rxCnt.val = 57 ∧ hdrOk (windowWith d b) = false ∧ receive d b = (failDec d b, .badHeader))
    ∨ (d.rxCnt.val = 57 ∧ hdrOk (windowWith d b) = true ∧ ckOk (windowWith d b) = false
      ∧ receive d b = (failDec d b, .checksumMismatch)) := by
  have hlt := d.rxCnt.isLt
  have hlen := windowWith_length d b
  rcases decodeFrame_cases (windowWith d b) with ⟨h, hd⟩ | ⟨h, h1, hd⟩ | ⟨h, h1, h2, hd⟩ | ⟨h, h1, h2, hd⟩
  · refine Or.inl ⟨by omega, ?_⟩
    simp [receive, hd]
  · refine Or.inr (Or.inr (Or.inl ⟨by omega, h1, ?_⟩))
    simp [receive, hd]
  · refine Or.inr (Or.inr (Or.inr ⟨by omega, h1, h2, ?_⟩))
    simp [receive, hd]
  · refine Or.inr (Or.inl ⟨by omega, h1, h2, ?_⟩)
    simp [receive, hd]

/-- RX_BYTE writes DEC's registers and result, the rx stream and the answer, nothing else. -/
theorem receiveByte_frame (b : Byte) (s : State) :
    encKept s (receiveByte b s) ∧ scnKept s (receiveByte b s) ∧ restKept s (receiveByte b s) := by
  simp [receiveByte, encKept, scnKept, restKept]

@[simp] theorem receiveByte_dec (b : Byte) (s : State) :
    (receiveByte b s).dec = (receive s.dec b).1 := rfl

@[simp] theorem receiveByte_rxResult (b : Byte) (s : State) :
    (receiveByte b s).rxResult = (receive s.dec b).2 := rfl

@[simp] theorem receiveByte_rxStream (b : Byte) (s : State) :
    (receiveByte b s).rxStream = s.rxStream ++ [b] := rfl

@[simp] theorem receiveBytes_nil (s : State) : receiveBytes [] s = ([], s) := rfl

/-- RX_BYTES of a byte and more bytes. -/
theorem receiveBytes_cons (b : Byte) (bs : List Byte) (s : State) :
    receiveBytes (b :: bs) s
      = ((receive s.dec b).2 :: (receiveBytes bs (receiveByte b s)).1,
          (receiveBytes bs (receiveByte b s)).2) := rfl

/-- RX_BYTES of two lists is one after the other. -/
theorem receiveBytes_append (as bs : List Byte) (s : State) :
    receiveBytes (as ++ bs) s
      = ((receiveBytes as s).1 ++ (receiveBytes bs (receiveBytes as s).2).1,
          (receiveBytes bs (receiveBytes as s).2).2) := by
  induction as generalizing s with
  | nil => simp
  | cons a as ih => simp [receiveBytes_cons, ih]

/-- RX_BYTES leaves ENC, SCN, the parameters and the presented operations alone. -/
theorem receiveBytes_frame (bs : List Byte) (s : State) :
    encKept s (receiveBytes bs s).2 ∧ scnKept s (receiveBytes bs s).2
      ∧ restKept s (receiveBytes bs s).2 := by
  induction bs generalizing s with
  | nil => simp [encKept, scnKept, restKept]
  | cons b bs ih =>
    have first := receiveByte_frame b s
    have rest := ih (receiveByte b s)
    rw [receiveBytes_cons]
    simp only [encKept, scnKept, restKept] at first rest ⊢
    simp [first, rest]

/-- The header test as the rule says it (R161). -/
theorem hdrOk_iff {w : List Byte} (h : w.length = 58) : hdrOk w = true ↔ w[0]? = some HEADER := by
  rw [byteAt_some (by omega)]
  simp [hdrOk]

/-- The checksum test in its second form (R161, R99). -/
theorem ckOk_iff {w : List Byte} (h : w.length = 58) : ckOk w = true ↔ xor8 w = 0x00#8 := by
  have split : w = w.take 57 ++ [byteAt w 57] := by
    have := List.take_add_one (l := w) (i := 57)
    rwa [List.take_of_length_le (by omega), byteAt_some (by omega)] at this
  have sum : xor8 w = xor8 (w.take 57) ^^^ byteAt w 57 := by
    conv_lhs => rw [split]
    exact xor8_concat _ _
  rw [sum, BitVec.xor_eq_zero_iff]
  simp [ckOk]

/-- A failed attempt writes the window and nothing else (R174). -/
theorem failDec_eq (d : Dec) (b : Byte) (h : d.rxCnt.val = 57) :
    failDec d b = { d with rxWin := (failDec d b).rxWin } := by
  have cnt : d.rxCnt = 57 := Fin.ext h
  simp only [failDec, storeByte, cnt]

/-- After a byte that is kept, the meaningful bytes are the window with it (R172). -/
theorem pendDec_window (d : Dec) (b : Byte) (h : d.rxCnt.val < 57) :
    (pendDec d b).rxWin.toList.take (pendDec d b).rxCnt.val = windowWith d b := by
  have cnt : (d.rxCnt.val + 1) % 58 = d.rxCnt.val + 1 := Nat.mod_eq_of_lt (by omega)
  simp only [pendDec, storeByte, Fin.val_ofNat, cnt, Vector.toList_set, windowWith]
  rw [List.take_add_one, List.take_set_of_le (Nat.le_refl _)]
  simp

/-- After a failed attempt, the meaningful bytes are the window without its first byte (R174). -/
theorem failDec_window (d : Dec) (b : Byte) (h : d.rxCnt.val = 57) :
    (failDec d b).rxWin.toList.take (failDec d b).rxCnt.val = (windowWith d b).drop 1 := by
  have len : (windowWith d b).length = 58 := by simp [h]
  have cnt : (failDec d b).rxCnt.val = 57 := rfl
  rw [cnt]
  apply List.ext_getElem?
  intro a
  by_cases ha : a < 57
  · have ha' : a < 58 := by omega
    rw [List.getElem?_take_of_lt ha, List.getElem?_drop, byteAt_some (l := windowWith d b) (by omega)]
    simp [failDec, ha, ha', Nat.add_comm 1 a]
  · rw [List.getElem?_eq_none (by simp; omega), List.getElem?_eq_none (by simp; omega)]

/-! ### SCN -/

/-- An index that fits in 8 bits is held as it is (R49). -/
theorem eventIndex_toNat {i : Nat} (h : i < 256) : (eventIndex i).toNat = i := by
  rw [eventIndex, if_pos h, BitVec.toNat_ofNat]
  omega

/-- The loop over two stretches of entries is one after the other (R222). -/
theorem fireFrom_append (now : U32) (i : Nat) (l m : List Entry) (w : Firing) :
    fireFrom now i (l ++ m) w = fireFrom now (i + l.length) m (fireFrom now i l w) := by
  induction l generalizing i w with
  | nil => simp [fireFrom]
  | cons e l ih =>
    simp only [List.cons_append, fireFrom, ih, List.length_cons]
    congr 1
    omega

/-- SC_TICK by the status it finds (R220 to R224). -/
theorem tick_cases (cfg : Config) (c : Scn) (dt : U32) :
    (c.scnStatus = .idle ∧ tick cfg c dt = c)
    ∨ (c.scnStatus = .active ∧ tick cfg c dt = tickActive (timeline cfg c.scnId) c dt)
    ∨ (c.scnStatus = .complete ∧ tick cfg c dt = tickComplete cfg c dt) := by
  cases h : c.scnStatus <;> simp [tick, h]

/-- SC_TRIGGER is rejected while active, rejected for an unknown id, else starts the run (R209). -/
theorem triggerRun_cases (id : BitVec 8) (s : State) :
    (s.scn.scnStatus = .active
      ∧ triggerRun id s
        = (s.setScn s.scn { trigAccepted := false, trigReason := .alreadyActive }).answer
            (.trig { trigAccepted := false, trigReason := .alreadyActive }))
    ∨ (s.scn.scnStatus ≠ .active ∧ s.cfg.nScn ≤ id.toNat
      ∧ triggerRun id s
        = (s.setScn s.scn { trigAccepted := false, trigReason := .unknownScenarioId }).answer
            (.trig { trigAccepted := false, trigReason := .unknownScenarioId }))
    ∨ (s.scn.scnStatus ≠ .active ∧ id.toNat < s.cfg.nScn
      ∧ triggerRun id s
        = (s.setScn (startedScn s.cfg id) { trigAccepted := true, trigReason := .noReason }).answer
            (.trig { trigAccepted := true, trigReason := .noReason })) := by
  by_cases h : s.scn.scnStatus = .active
  · simp [triggerRun, triggerOut, h]
  · by_cases h' : s.cfg.nScn ≤ id.toNat
    · simp [triggerRun, triggerOut, h, h']
    · simp [triggerRun, triggerOut, h, h', Nat.lt_of_not_le h']

/-- SC_TRIGGER leaves ENC, DEC, the parameters and the presented operations alone. -/
theorem triggerRun_frame (id : BitVec 8) (s : State) :
    encKept s (triggerRun id s) ∧ decKept s (triggerRun id s) ∧ restKept s (triggerRun id s) := by
  simp [triggerRun, encKept, decKept, restKept]

/-- The loop of a tick keeps the width of `fired` (R48, R222). -/
theorem fireFrom_fired_length (now : U32) (i : Nat) (l : List Entry) (w : Firing) :
    (fireFrom now i l w).fired.length = w.fired.length := by
  induction l generalizing i w with
  | nil => rfl
  | cons e l ih =>
    rw [fireFrom, ih, fireEntry]
    split_ifs <;> simp

/-- `n` ticks leave ENC, DEC, the parameters and the presented operations alone. -/
theorem tickRuns_frame (n : Nat) (dt : U32) (s : State) :
    encKept s (tickRuns n dt s) ∧ decKept s (tickRuns n dt s) ∧ restKept s (tickRuns n dt s) := by
  induction n generalizing s with
  | zero => simp [tickRuns, encKept, decKept, restKept]
  | succ n ih =>
    have := ih (tickRun dt s)
    simp only [tickRuns]
    simpa [tickRun, encKept, decKept, restKept] using this

/-! ### Sums -/

/-- The saturating sum as a natural number (R12). -/
@[simp] theorem satAdd32_toNat (a b : U32) :
    (satAdd32 a b).toNat = min (a.toNat + b.toNat) 4294967295 := by
  simp only [satAdd32, sat32, BitVec.toNat_ofNat]
  omega

/-! ### Steps without an operation -/

/-- A step on a request that asks for no operation keeps every register, the streams, the parameters and
the presented operations (R285, R124). -/
theorem withoutOperation_frame (why : DecodeError) (s : State) :
    registersKept s (withoutOperation why s) ∧ (withoutOperation why s).txStream = s.txStream
      ∧ (withoutOperation why s).rxStream = s.rxStream ∧ restKept s (withoutOperation why s) := by
  cases why <;> simp [withoutOperation, idleStep, encIdle, rxIdle, scIdle, registersKept, restKept]

/-- What a step is, by what stands first among the presented requests. -/
theorem step_cases (s : State) :
    (s.pending = [] ∧ step s = .next s)
    ∨ ∃ r rest, s.pending = r :: rest
      ∧ ((∃ i, decode r = .ok i ∧ step s = exec i (takeRequest rest s))
        ∨ ∃ why, decode r = .error why
          ∧ step s = .next (withoutOperation why (takeRequest rest s))) := by
  cases h : s.pending with
  | nil => exact Or.inl ⟨rfl, by simp [step, h]⟩
  | cons r rest =>
    refine Or.inr ⟨r, rest, rfl, ?_⟩
    cases hd : decode r with
    | ok i => exact Or.inl ⟨i, rfl, by simp [step, h, hd]⟩
    | error why => exact Or.inr ⟨why, rfl, by simp [step, h, hd]⟩

/-! ### Sequences -/

@[simp] theorem presentedBytes_nil : presentedBytes [] = [] := rfl

/-- The bytes a longer list presents. -/
theorem presentedBytes_cons (i : Instr) (is : List Instr) :
    presentedBytes (i :: is) = presentedBytes [i] ++ presentedBytes is := by
  simp only [presentedBytes, List.filterMap_cons, List.filterMap_nil]
  split <;> simp

@[simp] theorem statesAfterBytes_nil (s : State) : statesAfterBytes [] s = [] := rfl

/-- One more operation, which answers a next state. -/
theorem statesAfterBytes_cons {i : Instr} {s t : State} (is : List Instr) (h : exec i s = .next t) :
    statesAfterBytes (i :: is) s
      = (presentedBytes [i]).map (fun _ => t) ++ statesAfterBytes is t := by
  simp [statesAfterBytes, h]

/-! ### Byte spaces -/

/-- Each byte space has 58 bytes (R60, R62). -/
@[simp] theorem spaceBytes_length (sp : ByteSpace) (s : State) : (spaceBytes sp s).length = 58 := by
  cases sp <;> simp [spaceBytes]

/-- An offset above 57 does not exist (R60, R62). -/
theorem readByte_none (s : State) (sp : ByteSpace) {a : Nat} (h : 58 ≤ a) : s.readByte sp a = none := by
  simp [State.readByte, h]

end Sys2Proof.Machine
end

