-- ==== Sys2Proof/Laws/PerInstr.lean ====
section
/-! SUPPORT. The family stated for every operation: its encoding is presented on the ports that its row
of spec/opcode_table.json names. -/

namespace Sys2Proof.Laws

/-- The encoding drives the ports of the operation's row. -/
def FormatAgrees.Statement (i : Instr) : Prop := (encode i).format = i.format

theorem FormatAgrees.encNop : FormatAgrees.Statement .encNop := rfl
theorem FormatAgrees.encLoad (set : ChannelSet) : FormatAgrees.Statement (.encLoad set) := rfl
theorem FormatAgrees.encEmit : FormatAgrees.Statement .encEmit := rfl
theorem FormatAgrees.encRsv : FormatAgrees.Statement .encRsv := rfl
theorem FormatAgrees.rxNop : FormatAgrees.Statement .rxNop := rfl
theorem FormatAgrees.rxByte (b : Byte) : FormatAgrees.Statement (.rxByte b) := rfl
theorem FormatAgrees.rxTime (dt : U32) : FormatAgrees.Statement (.rxTime dt) := rfl
theorem FormatAgrees.rxRsv : FormatAgrees.Statement .rxRsv := rfl
theorem FormatAgrees.scNop : FormatAgrees.Statement .scNop := rfl
theorem FormatAgrees.scTrigger (id : BitVec 8) : FormatAgrees.Statement (.scTrigger id) := rfl
theorem FormatAgrees.scTick (dt : U32) : FormatAgrees.Statement (.scTick dt) := rfl
theorem FormatAgrees.scRsv : FormatAgrees.Statement .scRsv := rfl
theorem FormatAgrees.reset : FormatAgrees.Statement .reset := rfl
theorem FormatAgrees.snapRead : FormatAgrees.Statement .snapRead := rfl
theorem FormatAgrees.scStatus : FormatAgrees.Statement .scStatus := rfl
theorem FormatAgrees.ovRead : FormatAgrees.Statement .ovRead := rfl
theorem FormatAgrees.ovApply (nom : ChannelSet) : FormatAgrees.Statement (.ovApply nom) := rfl
theorem FormatAgrees.encode (set : ChannelSet) : FormatAgrees.Statement (.encode set) := rfl
theorem FormatAgrees.rxBytes (bs : List Byte) : FormatAgrees.Statement (.rxBytes bs) := rfl
theorem FormatAgrees.decode (buf : List Byte) : FormatAgrees.Statement (.decode buf) := rfl
theorem FormatAgrees.scTicks (n : Nat) (dt : U32) : FormatAgrees.Statement (.scTicks n dt) := rfl
theorem FormatAgrees.produce (dt : U32) (nom : ChannelSet) : FormatAgrees.Statement (.produce dt nom) := rfl

end Sys2Proof.Laws
end

