-- ==== Sys2Proof/Machine/Trace.lean ====
section
/-! DEFINITION. The trace syntax of 30_encoding.md R123, R124: an operation and its result as one line.
Bytes are two hexadecimal digits, times and ids decimal, `NONE` for 0xFF. Log 23 says what the rule
leaves to the model. -/

namespace Sys2Proof.Machine

/-- The mnemonic of an operation, as spec/opcode_table.json has it. -/
def mnemonic (i : Instr) : String :=
  match i with
  | .encNop => "ENC_NOP"
  | .encLoad _ => "ENC_LOAD"
  | .encEmit => "ENC_EMIT"
  | .encRsv => "ENC_RSV"
  | .rxNop => "RX_NOP"
  | .rxByte _ => "RX_BYTE"
  | .rxTime _ => "RX_TIME"
  | .rxRsv => "RX_RSV"
  | .scNop => "SC_NOP"
  | .scTrigger _ => "SC_TRIGGER"
  | .scTick _ => "SC_TICK"
  | .scRsv => "SC_RSV"
  | .reset => "RESET"
  | .snapRead => "SNAP_READ"
  | .scStatus => "SC_STATUS"
  | .ovRead => "OV_READ"
  | .ovApply _ => "OV_APPLY"
  | .encode _ => "ENCODE"
  | .rxBytes _ => "RX_BYTES"
  | .decode _ => "DECODE"
  | .scTicks _ _ => "SC_TICKS"
  | .produce _ _ => "PRODUCE"

/-- One hexadecimal digit, upper case. -/
def hexDigit (n : Nat) : String :=
  match n with
  | 10 => "A"
  | 11 => "B"
  | 12 => "C"
  | 13 => "D"
  | 14 => "E"
  | 15 => "F"
  | d => Nat.repr d

/-- `<byte>`: two hexadecimal digits. -/
def hexByte (b : Byte) : String := hexDigit (b.toNat / 16) ++ hexDigit (b.toNat % 16)

/-- A decimal integer. -/
def decInt (t : Int) : String :=
  match t with
  | .ofNat n => Nat.repr n
  | .negSucc n => "-" ++ Nat.repr (n + 1)

/-- An index register, `NONE` for 0xFF (R46, R49). -/
def indexText (v : BitVec 8) : String := if v = NONE then "NONE" else Nat.repr v.toNat

/-- `(V, I, T, S)`: one record of `<set>`. -/
def recText (r : ChRec) : String :=
  "(" ++ Nat.repr r.voltageMv.toNat ++ ", " ++ Nat.repr r.currentMa.toNat ++ ", "
    ++ decInt (asi16 r.temperatureDecic) ++ ", 0x" ++ hexByte r.status ++ ")"

/-- Items of a list with a separator between them. -/
def joinWith (sep : String) : List String → String
  | [] => ""
  | [x] => x
  | x :: y :: rest => x ++ sep ++ joinWith sep (y :: rest)

/-- `<set>`: eight records in channel order. -/
def setText (s : ChannelSet) : String := joinWith ", " (s.toList.map recText)

/-- `<ovspec>`. -/
def ovText (o : OvSpec) : String :=
  "mask=" ++ hexDigit o.mask.toNat ++ " V=" ++ Nat.repr o.voltageMv.toNat
    ++ " I=" ++ Nat.repr o.currentMa.toNat ++ " T=" ++ decInt (asi16 o.temperatureDecic)
    ++ " set=" ++ hexDigit o.stSet.toNat ++ " clr=" ++ hexDigit o.stClr.toNat

/-- The set of pairs OV_READ answers, between the two curly brackets (characters 123 and 125). -/
def overridesText (l : List (Fin 8 × OvSpec)) : String :=
  String.singleton (Char.ofNat 123)
    ++ joinWith ", " (l.map fun p => Nat.repr p.1.val ++ ": " ++ ovText p.2)
    ++ String.singleton (Char.ofNat 125)

/-- The names of R122 for `rx_result`. -/
def rxText (r : RxResult) : String :=
  match r with
  | .accepted => "Accepted"
  | .badHeader => "BadHeader"
  | .pending => "Pending"
  | .checksumMismatch => "ChecksumMismatch"

/-- The names of R122 for `link_status`. -/
def linkText (l : LinkStatus) : String :=
  match l with
  | .disconnected => "Disconnected"
  | .connected => "Connected"

/-- The names of R122 for `scn_status`. -/
def statusText (st : ScnStatus) : String :=
  match st with
  | .idle => "idle"
  | .active => "active"
  | .complete => "complete"

/-- `accepted` or `rejected(<reason>)`. -/
def trigText (t : TrigOut) : String :=
  match t.trigReason with
  | .noReason => "accepted"
  | .alreadyActive => "rejected(AlreadyActive)"
  | .unknownScenarioId => "rejected(UnknownScenarioId)"

/-- `OK(set)` or the name of the failure (R124). -/
def decodeText (d : DecodeResult) : String :=
  match d with
  | .ok s => "OK(" ++ setText s ++ ")"
  | .badLength => "BadLength"
  | .badHeader => "BadHeader"
  | .checksumMismatch => "ChecksumMismatch"

/-- Bytes in offset order. -/
def bytesText (l : List Byte) : String := joinWith " " (l.map hexByte)

/-- The operands of an operation, each after a space. -/
def operandText (i : Instr) : String :=
  match i with
  | .encNop => ""
  | .encLoad set => " " ++ setText set
  | .encEmit => ""
  | .encRsv => ""
  | .rxNop => ""
  | .rxByte b => " " ++ hexByte b
  | .rxTime dt => " " ++ Nat.repr dt.toNat
  | .rxRsv => ""
  | .scNop => ""
  | .scTrigger id => " " ++ Nat.repr id.toNat
  | .scTick dt => " " ++ Nat.repr dt.toNat
  | .scRsv => ""
  | .reset => ""
  | .snapRead => ""
  | .scStatus => ""
  | .ovRead => ""
  | .ovApply nom => " " ++ setText nom
  | .encode set => " " ++ setText set
  | .rxBytes bs => " " ++ bytesText bs
  | .decode buf => " " ++ bytesText buf
  | .scTicks n dt => " " ++ Nat.repr n ++ " " ++ Nat.repr dt.toNat
  | .produce dt nom => " " ++ Nat.repr dt.toNat ++ " " ++ setText nom

/-- What stands after the operation: nothing, or ` => ` and the result. -/
def resultText (r : Result) : String :=
  match r with
  | .silent => ""
  | .ack true => " => ack=1"
  | .ack false => " => ack=0"
  | .tx none => " => idle"
  | .tx (some b) => " => tx=" ++ hexByte b
  | .rx r => " => " ++ rxText r
  | .snapshot v =>
    " => valid=" ++ (if v.valid then "1" else "0") ++ " link=" ++ linkText v.link
      ++ " t=" ++ Nat.repr v.t.toNat ++ " set=" ++ setText v.set
      ++ " Vsys=" ++ Nat.repr v.vsys ++ " Itot=" ++ Nat.repr v.itot
  | .trig t => " => " ++ trigText t
  | .status v =>
    " => status=" ++ statusText v.status ++ " id=" ++ indexText v.id
      ++ " elapsed=" ++ Nat.repr v.elapsed.toNat ++ " event=" ++ indexText v.event
  | .overrides l => " => " ++ overridesText l
  | .eff s => " => " ++ setText s
  | .emitted l => " => " ++ bytesText l
  | .rxs l => " => " ++ joinWith ", " (l.map rxText)
  | .decoded d => " => " ++ decodeText d

/-- The trace line of an operation and what it answered (R123). -/
def traceLine (i : Instr) (r : Result) : String := mnemonic i ++ operandText i ++ resultText r

end Sys2Proof.Machine
end

