-- ==== Sys2Proof/Tests/Slice0.lean ====
section
/-! SUPPORT. Tests: ill-formed terms the checks refuse, words written out from the code tables, one-step
vectors of 95_test_vectors.md (their numbers V<n> stand in the docstrings), and for every statement with
hypotheses a witness of each of its clauses, at a boundary where it has one. -/

namespace Sys2Proof.Tests

open Sys2Proof
open Sys2Proof.Machine

/-! ### Sample sets and small states -/

/-- A record from its four numbers. -/
def chan (v i : Nat) (t : Int) (st : Nat) : ChRec :=
  ⟨BitVec.ofNat 16 v, BitVec.ofNat 16 i, asu16 t, BitVec.ofNat 8 st⟩

/-- `S1` of 95_test_vectors.md section 0. -/
def setS1 : ChannelSet :=
  #v[chan 0 0 250 0x00, chan 13800 1200 300 0x01, chan 13750 3000 320 0x01, chan 13790 8000 450 0x01,
     chan 13810 2500 380 0x01, chan 12000 50000 1250 0x0F, chan 16000 1 (-400) 0x02,
     chan 13800 170 170 0x01]

/-- `SX`: every field out of range. -/
def setSX : ChannelSet := Vector.replicate 8 (chan 65535 65535 (-32768) 0xFF)

/-- The zero set but for channel 0. -/
def setWith (r : ChRec) : ChannelSet := zeroSet.set 0 r

/-- `SB`: reserved status bits set. -/
def setSB : ChannelSet := setWith (chan 1 2 (-1) 0xF5)

/-- The lanes of `S1` on a port, the `CHREC` packings of section 0. -/
def lanesS1 : SetLanes :=
  #v[0x0000FA00000000#56, 0x01012C04B035E8#56, 0x0101400BB835B6#56, 0x0101C21F4035DE#56,
     0x01017C09C435F2#56, 0x0F04E2C3502EE0#56, 0x02FE7000013E80#56, 0x0100AA00AA35E8#56]

/-- `frame(S1)` as V2 writes it. -/
def bytesS1 : List Byte :=
  [0xAA, 0x00, 0x00, 0x00, 0x00, 0xFA, 0x00, 0x00, 0xE8, 0x35, 0xB0, 0x04, 0x2C, 0x01, 0x01]
  ++ [0xB6, 0x35, 0xB8, 0x0B, 0x40, 0x01, 0x01, 0xDE, 0x35, 0x40, 0x1F, 0xC2, 0x01, 0x01]
  ++ [0xF2, 0x35, 0xC4, 0x09, 0x7C, 0x01, 0x01, 0xE0, 0x2E, 0x50, 0xC3, 0xE2, 0x04, 0x0F]
  ++ [0x80, 0x3E, 0x01, 0x00, 0x70, 0xFE, 0x02, 0xE8, 0x35, 0xAA, 0x00, 0xAA, 0x00, 0x01, 0x3E]

/-- ENC with `n` bytes of the frame of `set` emitted. -/
def emitting (set : ChannelSet) (n : Fin 58) : State :=
  { State.reset with
    enc := { encSet := set, encBusy := true, encIdx := n,
             encXor := xor8 ((frame set).take n.val), encRangeWarn := false }
    txStream := (frame set).take n.val }

/-- DEC with the bytes `l` in its window, all it was given. -/
def holding (l : List Byte) : State :=
  { State.reset with
    dec := { Dec.reset with
             rxWin := Vector.ofFn fun i => byteAt l i.val, rxCnt := Fin.ofNat 58 l.length }
    rxStream := l }

/-- DEC Connected, with a silence. -/
def connected (silence : U32) : State :=
  { State.reset with
    dec := { Dec.reset with snapValid := true, linkStatus := .connected, silenceMs := silence } }

/-- Scenario 0 active at a time, nothing fired. -/
def active (elapsed : U32) : State :=
  { State.reset with
    scn := { Scn.reset 16 with scnStatus := .active, scnId := 0, elapsedMs := elapsed } }

/-- Scenario 0 complete, with a settle time. -/
def complete (settle : U32) : State :=
  { State.reset with
    scn := { Scn.reset 16 with
             scnStatus := .complete, scnId := 0, elapsedMs := 5000, settleMs := settle } }

/-- SCN with one override register in place. -/
def overridden (c : Fin 8) (o : OvSpec) : State :=
  { active 0 with scn := { (active 0).scn with ov := clearOvs.set c.val o c.isLt } }

/-- What a look at the next state gives, `none` where there is none. -/
def after {α : Type} (i : Instr) (s : State) (look : State → α) : Option α :=
  match exec i s with
  | .next t => some (look t)
  | .fault _ => none
  | .refused _ => none

/-! ### Well-formedness -/

/-- RX_BYTES with no byte is ill formed, and no request of it decodes. -/
theorem test_rxBytes_of_nothing_ill_formed :
    (Instr.rxBytes []).wellFormed = false ∧ decode (.pseudoRxBytes []) = .error .noBytes := by decide

/-- `rst` driven low asks for nothing. -/
theorem test_rst_low_is_no_operation : decode (.rst 0b0#1) = .error .rstLow := by decide

/-- A step with `rst` low and no command keeps a frame in progress and quietens `tx_valid` (R285, R138). -/
theorem test_rst_low_step :
    step (present [.rst 0b0#1] { emitting setS1 57 with encOut := ⟨false, true, 0x01#8⟩ })
      = .next { emitting setS1 57 with encOut := ⟨false, false, 0x00#8⟩ } := rfl

/-- A step on an RX_BYTES of no byte presents no byte to DEC (R124). -/
theorem test_rxBytes_of_nothing_step :
    step (present [.pseudoRxBytes []] (connected 300)) = .next { connected 300 with result := .rxs [] } :=
  rfl

/-! ### Decoding: words written out from R115 to R119 -/

theorem test_decode_encNop : decode (.encCmd 0b00#2 lanesS1) = .ok .encNop := by decide
theorem test_decode_encLoad : decode (.encCmd 0b01#2 lanesS1) = .ok (.encLoad setS1) := by decide
theorem test_decode_encEmit : decode (.encCmd 0b10#2 lanesS1) = .ok .encEmit := by decide
theorem test_decode_encRsv : decode (.encCmd 0b11#2 lanesS1) = .ok .encRsv := by decide
theorem test_decode_rxNop : decode (.rxCmd 0b00#2 0x37#8 5#32) = .ok .rxNop := by decide
theorem test_decode_rxByte : decode (.rxCmd 0b01#2 0x37#8 5#32) = .ok (.rxByte 0x37#8) := by decide
theorem test_decode_rxTime : decode (.rxCmd 0b10#2 0x37#8 5#32) = .ok (.rxTime 5#32) := by decide
theorem test_decode_rxRsv : decode (.rxCmd 0b11#2 0x37#8 5#32) = .ok .rxRsv := by decide
theorem test_decode_scNop : decode (.scCmd 0b00#2 7#8 100#32) = .ok .scNop := by decide
theorem test_decode_scTrigger : decode (.scCmd 0b01#2 7#8 100#32) = .ok (.scTrigger 7#8) := by decide
theorem test_decode_scTick : decode (.scCmd 0b10#2 7#8 100#32) = .ok (.scTick 100#32) := by decide
theorem test_decode_scRsv : decode (.scCmd 0b11#2 7#8 100#32) = .ok .scRsv := by decide
theorem test_decode_reset : decode (.rst 0b1#1) = .ok .reset := by decide
theorem test_decode_snapRead : decode .readSnap = .ok .snapRead := by decide
theorem test_decode_scStatus : decode .readStatus = .ok .scStatus := by decide
theorem test_decode_ovRead : decode .readOv = .ok .ovRead := by decide
theorem test_decode_ovApply : decode (.readEff lanesS1) = .ok (.ovApply setS1) := by decide
theorem test_decode_encode : decode (.pseudoEncode lanesS1) = .ok (.encode setS1) := by decide
theorem test_decode_rxBytes :
    decode (.pseudoRxBytes [0xAA#8, 0x00#8]) = .ok (.rxBytes [0xAA#8, 0x00#8]) := by decide
theorem test_decode_decode : decode (.pseudoDecode []) = .ok (.decode []) := by decide
theorem test_decode_scTicks : decode (.pseudoScTicks 50 100#32) = .ok (.scTicks 50 100#32) := by decide
theorem test_decode_produce :
    decode (.pseudoProduce 100#32 lanesS1) = .ok (.produce 100#32 setS1) := by decide

/-- The table's words on the ENC port (log 3). -/
theorem test_table_words :
    decodeTableWord 8 0 = some .encNop ∧ decodeTableWord 8 1 = some (.encLoad zeroSet)
      ∧ decodeTableWord 8 2 = some .encEmit ∧ decodeTableWord 8 3 = some .encRsv := by decide

/-- The step after reset runs the word placed for it. -/
theorem test_fetch_word : step (State.reset.withFetchWord 8 2) = exec .encEmit State.reset := rfl

/-- An operation presented right after reset is performed by the next step. -/
theorem test_step_presented :
    step (present [.scCmd 0b01#2 0#8 0#32] State.reset) = exec (.scTrigger 0) State.reset := rfl

/-! ### Formats -/

/-- The packings of section 0 (R92), both ways. -/
theorem test_chrec_packing : packLanes setS1 = lanesS1 ∧ unpackLanes lanesS1 = setS1 := by decide

theorem test_chrec_packing_SB : packRec setSB[0] = 0xF5FFFF00020001#56 := by decide

/-- `ov[3]` packed, V44 and V45 (R111), both ways. -/
theorem test_ovspec_packing :
    packOv ⟨0x2, 0, 6000, 0, 0, 0⟩ = 0x200001770000000#60
      ∧ packOv ⟨0xE, 0, 0, asu16 1100, 0x8, 0⟩ = 0xE00000000044C80#60
      ∧ unpackOv 0xE00000000044C80#60 = ⟨0xE, 0, 0, asu16 1100, 0x8, 0⟩ := by decide

/-- The packed entries of R240 (R112). -/
theorem test_entries_cooling_fan :
    coolingFanFailure.entries.map packEntry
      = [0x000003E83200001770000000#96, 0x000007D03200000BB8000000#96,
         0x00000BB83200000000000000#96, 0x00000FA03C00000000044C80#96] := by decide

/-- The packed entries of R241 (R112). -/
theorem test_entries_engine_start :
    engineStartSequence.entries.map packEntry
      = [0x000000002A00001194000010#96, 0x000001F41A000009C4000010#96,
         0x000003E80B2904AFC8000010#96, 0x000007D00B00000000000001#96,
         0x000009C42200000DAC000000#96, 0x00000BB812000005DC000000#96] := by decide

/-- An entry read back from its packing; bit 63 is ignored (R112, R121). -/
theorem test_entry_unpacked :
    unpackEntry 0x000003E8B200001770000000#96 "Cooling fan current falling"
      = (coolingFanFailure.entries.headD ⟨0, 0, clearOv, ""⟩) := by decide

/-- The default table is well formed (R113), an out-of-order one is not. -/
theorem test_default_table :
    wellFormedTable defaultConfig = true
      ∧ offsetsOrdered engineStartSequence.entries.reverse = false := by decide

/-- A scenario table of one scenario, with one entry at offset 100 and a duration of 200. -/
def tableOf (maxEntries : Nat) (offset : U32) (o : OvSpec) : Config :=
  { defaultConfig with
    maxEntries := maxEntries
    rom := [⟨"", "", 200, [⟨100, 0, clearOv, ""⟩, ⟨offset, 0, o, ""⟩]⟩] }

/-- Each of WF1 to WF5 of R113 is what refuses a table; MAX_ENTRIES itself may be any natural (R7). -/
theorem test_well_formed_tables :
    wellFormedTable { defaultConfig with maxEntries := 300 } = true
      ∧ wellFormedTable (tableOf 2 200 ⟨0x1, 16000, 0, 0, 0, 0⟩) = true
      ∧ wellFormedTable (tableOf 1 200 ⟨0x1, 16000, 0, 0, 0, 0⟩) = false
      ∧ wellFormedTable (tableOf 2 200 ⟨0x1, 16001, 0, 0, 0, 0⟩) = false
      ∧ wellFormedTable (tableOf 2 99 ⟨0x1, 16000, 0, 0, 0, 0⟩) = false
      ∧ wellFormedTable (tableOf 2 201 ⟨0x1, 16000, 0, 0, 0, 0⟩) = false
      ∧ wellFormedTable (tableOf 2 200 ⟨0x1, 16000, 1, 0, 0, 0⟩) = false := by decide

/-- The largest index 8 bits hold, and the first they do not (R49; log 27). -/
theorem test_event_index : eventIndex 255 = 0xFF#8 ∧ eventIndex 256 = Config.wideEvent 256 :=
  ⟨rfl, rfl⟩

/-- V1, V2, V5, V6: frames. -/
theorem test_frame_zero : frame zeroSet = 0xAA#8 :: List.replicate 56 0x00#8 ++ [0xAA#8] := by
  decide +kernel
theorem test_frame_S1 : frame setS1 = bytesS1 := by decide +kernel
theorem test_frame_SX :
    frame setSX = 0xAA#8 ::
      (List.replicate 8 [0xFF#8, 0xFF#8, 0xFF#8, 0xFF#8, 0x00#8, 0x80#8, 0x0F#8]).flatten
        ++ [0xAA#8] := by decide +kernel
theorem test_frame_SB :
    frame setSB = [0xAA#8, 0x01#8, 0x00#8, 0x02#8, 0x00#8, 0xFF#8, 0xFF#8, 0x05#8]
      ++ List.replicate 49 0x00#8 ++ [0xAC#8] := by decide +kernel

/-- V12: the range flag at the edges of every range. -/
theorem test_range_edges :
    [chan 16000 0 0 0, chan 16001 0 0 0, chan 0 50000 0 0, chan 0 50001 0 0, chan 0 0 (-400) 0,
      chan 0 0 (-401) 0, chan 0 0 1250 0, chan 0 0 1251 0, chan 0 0 0 0x0F, chan 0 0 0 0x10].map
        (fun r => rangeWarn (setWith r))
      = [false, true, false, true, false, true, false, true, false, true] := by decide

/-- The codes of R122. -/
theorem test_result_codes :
    (rxCode .accepted, rxCode .badHeader, rxCode .pending, rxCode .checksumMismatch)
        = (0#2, 1#2, 2#2, 3#2)
      ∧ (reasonCode .noReason, reasonCode .alreadyActive, reasonCode .unknownScenarioId)
        = (0#2, 1#2, 2#2)
      ∧ (statusCode .idle, statusCode .active, statusCode .complete) = (0#2, 1#2, 2#2)
      ∧ (linkCode .disconnected, linkCode .connected) = (0#1, 1#1) := by decide

/-- Trace lines in the syntax of R123. -/
theorem test_trace_lines :
    traceLine .encEmit (.tx (some 0x3E#8)) = "ENC_EMIT => tx=3E"
      ∧ traceLine (.scTrigger 7) (.trig { trigAccepted := false, trigReason := .alreadyActive })
        = "SC_TRIGGER 7 => rejected(AlreadyActive)"
      ∧ traceLine .scStatus (.status (statusView defaultConfig (Scn.reset 16)))
        = "SC_STATUS => status=idle id=NONE elapsed=0 event=NONE" := by decide

/-! ### ENC -/

/-- V10: a no-op between two bytes keeps the place and quietens the ports. -/
theorem test_encNop :
    after .encNop (emitting setS1 9) (fun t => (t.enc.encIdx, t.enc.encXor, t.encOut.txValid))
      = some (9, 0xB8#8, false) := by decide +kernel

/-- V9: code 3 does the same. -/
theorem test_encRsv : exec .encRsv (emitting setS1 9) = exec .encNop (emitting setS1 9) := rfl

/-- V7: the load is acknowledged and the first index is 0. -/
theorem test_encLoad :
    after (.encLoad setS1) State.reset (fun t => (t.encOut.encAck, t.enc.encBusy, t.enc.encRangeWarn))
      = some (true, true, false) := by decide

/-- V7: a load while busy keeps the set and the range flag. -/
theorem test_encLoad_busy :
    after (.encLoad setSX) (emitting setS1 0)
      (fun t => (t.encOut.encAck, decide (t.enc.encSet = setS1), t.enc.encRangeWarn))
      = some (false, true, false) := by decide +kernel

/-- V8, emits 6 and 57. -/
theorem test_encEmit :
    (after .encEmit (emitting setS1 5) (fun t => (t.encOut.txData, t.enc.encIdx, t.enc.encXor)),
     after .encEmit (emitting setS1 56) (fun t => (t.encOut.txData, t.enc.encIdx, t.enc.encXor)))
      = (some (0xFA#8, 6, 0x50#8), some (0x01#8, 57, 0x3E#8)) := by decide +kernel

/-- V8, emit 58: the checksum, and idle again. -/
theorem test_encEmit_checksum :
    after .encEmit (emitting setS1 57)
      (fun t => (t.result, t.enc.encBusy, t.enc.encIdx, t.enc.encXor))
      = some (.tx (some 0x3E#8), false, 0, 0x00#8) := by decide +kernel

/-- V2: the 58 bytes of ENCODE. -/
theorem test_encode :
    after (.encode setS1) State.reset (fun t => t.result) = some (.emitted bytesS1) := by
  decide +kernel

/-- P5, iteration 10: the override of entry 0 is in the frame of the iteration whose tick fired it. -/
theorem test_produce :
    after (.produce 100 setS1) (active 900) (fun t => ((t.txStream.drop 22).take 7, t.txStream[57]?))
      = some ([0xDE#8, 0x35#8, 0x70#8, 0x17#8, 0xC2#8, 0x01#8, 0x01#8], some 0x06#8) := by
  decide +kernel

/-! ### DEC -/

theorem test_rxNop :
    after .rxNop (holding [0xAA#8]) (fun t => (t.rxResult, t.dec.rxCnt)) = some (.pending, 1) := by
  decide

theorem test_rxRsv : exec .rxRsv (holding [0xAA#8]) = exec .rxNop (holding [0xAA#8]) := rfl

/-- The example of R170. -/
theorem test_rxByte_pending :
    after (.rxByte 0xAA#8) State.reset (fun t => (t.rxResult, t.dec.rxCnt, t.dec.rxWin[0]))
      = some (.pending, 1, 0xAA#8) := by decide

/-- P1, the last byte of the loopback. -/
theorem test_rxByte_accepted :
    after (.rxByte 0x3E#8) (holding (bytesS1.take 57))
      (fun t => (t.rxResult, decide (t.dec.snap = setS1), t.dec.linkStatus, t.dec.rxCnt))
      = some (.accepted, true, .connected, 0) := by decide +kernel

/-- V31 (a): one more millisecond than the timeout drops the link. -/
theorem test_rxTime_limit :
    (after (.rxTime 0) (connected 300) (fun t => t.dec.linkStatus),
     after (.rxTime 1) (connected 300) (fun t => t.dec.linkStatus))
      = (some .connected, some .disconnected) := by decide

/-- V37: one counter saturates, the other wraps. -/
theorem test_rxTime_edges :
    after (.rxTime 2)
      { State.reset with
        dec := { Dec.reset with silenceMs := 0xFFFFFFFF#32, rxClockMs := 0xFFFFFFFF#32 } }
      (fun t => (t.dec.silenceMs, t.dec.rxClockMs)) = some (0xFFFFFFFF#32, 0x00000001#32) := by decide

/-- V36: two bytes of zeros after 57 of them fail on the header, one after the other. -/
theorem test_rxBytes :
    after (.rxBytes [0x00#8, 0x00#8]) (holding (List.replicate 57 0x00#8))
      (fun t => (t.result, t.dec.rxCnt)) = some (.rxs [.badHeader, .badHeader], 57) := by
  decide +kernel

/-- V35: the sum and the largest. -/
theorem test_snapRead :
    after .snapRead { State.reset with dec := { Dec.reset with snap := setS1 } }
      (fun t => match t.result with | .snapshot v => (v.vsys, v.itot) | _ => (0, 0))
      = some (16000, 64871) := by decide

/-- V20: the reserved status bits of `SX` are cleared, nothing else. -/
theorem test_decode_SX :
    decodeFrame (frame setSX) = .ok (Vector.replicate 8 (chan 65535 65535 (-32768) 0x0F)) := by
  decide +kernel

/-- V22: the header is tested before the checksum. -/
theorem test_decode_both_bad :
    after (.decode (((bytesS1.set 0 0xAB#8).set 57 0x3F#8))) State.reset (fun t => t.result)
      = some (.decoded .badHeader) := by decide +kernel

/-! ### SCN -/

theorem test_scNop :
    after .scNop (active 1000) (fun t => (t.scn, t.trig)) = some ((active 1000).scn, TrigOut.quiet) := by
  decide

theorem test_scRsv : exec .scRsv (active 1000) = exec .scNop (active 1000) := rfl

/-- V40. -/
theorem test_scTrigger :
    after (.scTrigger 0) State.reset (fun t => (t.trig.trigAccepted, t.scn.scnStatus, t.scn.curEvent))
      = some (true, .active, 0xFF#8) := by decide

/-- V42: AlreadyActive whatever the id. -/
theorem test_scTrigger_active :
    after (.scTrigger 7) (active 1000) (fun t => (t.trig.trigReason, t.scn.elapsedMs))
      = some (.alreadyActive, 1000#32) := by decide

/-- V44: entry 0 fires at 1000. -/
theorem test_scTick :
    after (.scTick 100) (active 900)
      (fun t => (t.scn.elapsedMs, t.scn.curEvent, t.scn.fired.take 2, packOv t.scn.ov[3]))
      = some (1000#32, 0#8, [true, false], 0x200001770000000#60) := by decide

/-- V54: the clock saturates, the run completes. -/
theorem test_scTick_saturates :
    after (.scTick 4294967295) (active 4000)
      (fun t => (t.scn.elapsedMs, t.scn.scnStatus, t.scn.curEvent, packOv t.scn.ov[3]))
      = some (4294967295#32, .complete, 3#8, 0#60) := by decide

/-- V48: two ticks of 100 settle a run at 1800. -/
theorem test_scTicks :
    after (.scTicks 2 100) (complete 1800) (fun t => (t.scn.scnStatus, t.scn.scnId, t.scn.settleMs))
      = some (.idle, 0xFF#8, 0#32) := by decide

/-- V56: the texts of a run with entry 3 fired last. -/
theorem test_scStatus :
    after .scStatus { active 4000 with scn := { (active 4000).scn with curEvent := 3 } }
      (fun t => match t.result with
        | .status v => (v.name, v.currentEvent)
        | _ => ("", ""))
      = some ("Cooling Fan Failure", "Cooling fan channel over temperature") := by decide

theorem test_ovRead :
    after .ovRead (overridden 3 ⟨0x2, 0, 6000, 0, 0, 0⟩) (fun t => t.result)
      = some (.overrides [(3, ⟨0x2, 0, 6000, 0, 0, 0⟩)]) := by decide

/-- V52: set wins over clear, bits 7:4 pass through. -/
theorem test_ovApply :
    after (.ovApply (zeroSet.set 1 (chan 1 2 3 0xF1))) (overridden 1 ⟨0x8, 0, 0, 0, 0x2, 0x2⟩)
      (fun t => t.result) = some (.eff (zeroSet.set 1 (chan 1 2 3 0xF3))) := by decide

/-- V53. -/
theorem test_ovMerge :
    ovMerge ⟨0x2, 0, 0, 0, 0, 0⟩ ⟨0xC, 0, 0, asu16 1100, 0x8, 0⟩ = ⟨0xE, 0, 0, asu16 1100, 0x8, 0⟩ := by
  decide

/-! ### All units -/

/-- R300: RESET in mid-frame. -/
theorem test_reset :
    after .reset (emitting setS1 9)
      (fun t => (t.enc, t.scn.scnId, t.rxResult, t.txStream.length))
      = some (Enc.reset, 0xFF#8, .pending, 9) := by decide +kernel

/-- `rst` over the command ports (R119). -/
theorem test_rst_ports :
    (InPorts.mk 1 1 lanesS1 1 0xAA 0 1 0 0).requests = [.rst 1#1] := by decide

/-- The output ports after reset (R300). -/
theorem test_ports_reset :
    (State.reset.outPorts.scnId, State.reset.outPorts.curEvent, State.reset.outPorts.rxResult,
      State.reset.outPorts.linkStatus, State.reset.outPorts.systemVoltageMv)
      = (0xFF#8, 0xFF#8, 2#2, 0#1, 0#16) := by decide

/-! ### Witnesses of the statements' hypotheses -/

/-- DEC's invariant at its reset value. -/
theorem decInv_reset : DecInv defaultConfig Dec.reset where
  connected := by decide
  invalid := by decide
  reserved := by decide

/-- A run in which nothing has fired. -/
theorem none_fired (i : Nat) : (List.replicate 16 false).getD i false = false := by
  rw [List.getD_eq_getElem?_getD, List.getElem?_replicate]
  split <;> rfl

/-- SCN's invariant at its reset value. -/
theorem scnInv_reset : ScnInv defaultConfig (Scn.reset 16) where
  width := by decide
  idle := by decide
  known := by decide
  clear := by decide
  settle := by decide
  complete := by decide
  event := by decide
  firedDue := fun i h => absurd (h.symm.trans (none_fired i)) (by decide)

/-- ENC's invariant in mid-frame. -/
theorem encInv_emitting (set : ChannelSet) (n : Fin 58) : EncInv (emitting set n).enc where
  idle := by intro h; cases h
  busy := fun _ => rfl

theorem witness_EncLoad_idle : State.reset.enc.encBusy = false := by decide
theorem witness_EncLoad_busy : (emitting setS1 57).enc.encBusy = true := rfl

theorem witness_RangeWarn_in : State.reset.enc.encBusy = false
    ∧ after (.encLoad (setWith (chan 16000 50000 1250 0x0F))) State.reset (fun t => t.enc.encRangeWarn)
      = some false := by decide
theorem witness_RangeWarn_out : State.reset.enc.encBusy = false
    ∧ after (.encLoad (setWith (chan 16001 0 0 0x00))) State.reset (fun t => t.enc.encRangeWarn)
      = some true := by decide

theorem witness_EncEmit_first : (emitting setS1 0).enc.encBusy = true
    ∧ (frame (emitting setS1 0).enc.encSet)[(0 : Nat)]? = some 0xAA#8 := by decide +kernel
theorem witness_EncEmit_last : (emitting setS1 56).enc.encBusy = true
    ∧ (emitting setS1 56).enc.encIdx.val < 57
    ∧ (frame (emitting setS1 56).enc.encSet)[(emitting setS1 56).enc.encIdx.val]? = some 0x01#8 := by
  decide +kernel
theorem witness_EncEmitSendsTheChecksum : (emitting setS1 57).enc.encBusy = true
    ∧ (emitting setS1 57).enc.encIdx.val = 57 ∧ EncInv (emitting setS1 57).enc :=
  ⟨rfl, rfl, encInv_emitting _ _⟩

/-- Two of the 58 bytes are left; refused loads and operations of other units stand between them. -/
theorem witness_FrameLeavesInOrder : EncInv (emitting setS1 56).enc
    ∧ (emitting setS1 56).enc.encBusy = true
    ∧ (∀ i ∈ [Instr.encNop, .encEmit, .encLoad setSX, .rxByte 0xAA, .scTick 1, .snapRead, .encEmit],
        i ≠ .reset ∧ i.format ≠ .pseudo)
    ∧ [Instr.encNop, .encEmit, .encLoad setSX, .rxByte 0xAA, .scTick 1, .snapRead, .encEmit].count
        .encEmit ≤ 58 - (emitting setS1 56).enc.encIdx.val :=
  ⟨encInv_emitting _ _, rfl, by decide, by decide⟩

theorem witness_SetPort_clean : ∀ c : Fin 8, setS1[c].status &&& 0xF0#8 = 0#8 := by decide
theorem witness_SetPort_edges :
    (frame setS1)[1 + 0]? = some ((packSet setS1).extractLsb' (8 * 0) 8)
      ∧ (frame setS1)[1 + 55]? = some ((packSet setS1).extractLsb' (8 * 55) 8) := by decide +kernel

theorem witness_FramesAgree_apart :
    setSB ≠ canon setSB ∧ canon setSB = canon (canon setSB) := by decide

theorem witness_RxBytePending_first : State.reset.dec.rxCnt.val + 1 < 58
    ∧ (57 : Nat) ≠ State.reset.dec.rxCnt.val := by decide
theorem witness_RxBytePending_last : (holding (bytesS1.take 56)).dec.rxCnt.val + 1 < 58
    ∧ (holding (bytesS1.take 56)).dec.rxCnt.val = 56 := by decide

theorem witness_RxByteAccepts : (holding (bytesS1.take 57)).dec.rxCnt.val = 57
    ∧ bytesS1 = memRead .win 0 57 (holding (bytesS1.take 57)) ++ [0x3E#8]
    ∧ bytesS1[0]? = some 0xAA#8 ∧ xor8 bytesS1 = 0x00#8
    ∧ 57 ≤ (holding (bytesS1.take 57)).rxStream.length := by decide +kernel
theorem witness_RxByteAccepts_last_record :
    (bytesS1.drop (1 + 7 * 7)).take 7 = [0xE8#8, 0x35#8, 0xAA#8, 0x00#8, 0xAA#8, 0x00#8, 0x01#8] := by
  decide

/-- The window of V26: a good header, a bad checksum. -/
theorem witness_RxByteRejects_checksum :
    (holding (0xAA#8 :: bytesS1.take 56)).dec.rxCnt.val = 57
    ∧ 0xAA#8 :: bytesS1.take 57
      = memRead .win 0 57 (holding (0xAA#8 :: bytesS1.take 56)) ++ [0x01#8]
    ∧ ¬ ((0xAA#8 :: bytesS1.take 57)[0]? = some 0xAA#8 ∧ xor8 (0xAA#8 :: bytesS1.take 57) = 0x00#8)
    ∧ (0xAA#8 :: bytesS1.take 57)[0]? = some 0xAA#8 := by decide +kernel
theorem witness_RxByteRejects_header :
    (holding (List.replicate 57 0x00#8)).dec.rxCnt.val = 57
    ∧ List.replicate 58 0x00#8 = memRead .win 0 57 (holding (List.replicate 57 0x00#8)) ++ [0x00#8]
    ∧ ¬ ((List.replicate 58 0x00#8)[0]? = some 0xAA#8 ∧ xor8 (List.replicate 58 0x00#8) = 0x00#8)
    ∧ (List.replicate 58 0x00#8)[0]? ≠ some 0xAA#8
    ∧ 57 ≤ (holding (List.replicate 57 0x00#8)).rxStream.length := by decide +kernel

theorem witness_RxTime_at_the_timeout :
    after (.rxTime 0) (connected 300)
      (fun t => decide (t.dec.silenceMs.toNat ≤ (connected 300).cfg.linkTimeoutMs.toNat))
      = some true := by decide
theorem witness_RxTime_invariant : DecInv (connected 300).cfg (connected 300).dec
    ∧ (0#32 : U32) = 0#32 :=
  ⟨{ connected := by decide, invalid := by decide, reserved := by decide }, rfl⟩
theorem witness_RxTime_past_the_timeout :
    after (.rxTime 1) (connected 300)
      (fun t => decide ((connected 300).cfg.linkTimeoutMs.toNat < t.dec.silenceMs.toNat))
      = some true := by decide

theorem witness_LinkStatus_up :
    (holding (bytesS1.take 57)).dec.linkStatus = .disconnected
    ∧ after (.rxByte 0x3E#8) (holding (bytesS1.take 57)) (fun t => t.dec.linkStatus)
      = some .connected := by decide +kernel
theorem witness_LinkStatus_down : (connected 300).dec.linkStatus = .connected
    ∧ after (.rxTime 1) (connected 300) (fun t => t.dec.linkStatus) = some .disconnected := by decide

theorem witness_SnapRead_before_a_frame : DecInv State.reset.cfg State.reset.dec
    ∧ State.reset.dec.snapValid = false := ⟨decInv_reset, rfl⟩

theorem witness_Decode_length : (bytesS1.take 57).length ≠ 58 ∧ (bytesS1 ++ [0x00#8]).length ≠ 58 := by
  decide
theorem witness_Decode_header :
    (bytesS1.set 0 0xAB#8).length = 58 ∧ (bytesS1.set 0 0xAB#8)[0]? ≠ some 0xAA#8 := by decide
theorem witness_Decode_checksum :
    (bytesS1.set 57 0xBE#8).length = 58 ∧ (bytesS1.set 57 0xBE#8)[0]? = some 0xAA#8
      ∧ (bytesS1.set 57 0xBE#8)[57]? ≠ some (xor8 ((bytesS1.set 57 0xBE#8).take 57)) := by
  decide +kernel
theorem witness_Decode_good :
    bytesS1.length = 58 ∧ bytesS1[0]? = some 0xAA#8
      ∧ bytesS1[57]? = some (xor8 (bytesS1.take 57)) := by decide +kernel

theorem witness_DecodeOfFrame_valid : validSet setS1 = true := by decide

/-- V23: the first bit of the header, the last of the checksum. -/
theorem witness_SingleBitFlip : (0 < 58 ∧ 0 < 8) ∧ (57 < 58 ∧ 7 < 8)
    ∧ ((frame setS1).modify 57 (fun b => b ^^^ (1#8 <<< 7)))[57]? = some 0xBE#8 := by decide +kernel

theorem witness_RxBytes : (1 : Nat) < [0xAA#8, 0x00#8].length := by decide

theorem witness_ConsumerLoop :
    (holding (bytesS1.take 57)).dec.rxCnt.val + [0x3E#8, 0xAA#8].length ≤ 59 := by decide

theorem witness_PerfectTransport : State.reset.dec.rxCnt = 0 := rfl
/-- A frame with time passing before each of its bytes. -/
theorem witness_PerfectTransport_between : State.reset.dec.rxCnt = 0
    ∧ (∀ i ∈ (frame zeroSet).flatMap fun b => [Instr.rxTime 100, .rxByte b],
        i ≠ .reset ∧ i.format ≠ .pseudo)
    ∧ presentedBytes ((frame zeroSet).flatMap fun b => [.rxTime 100, .rxByte b])
      = [zeroSet].flatMap frame := by decide +kernel

/-- V26 (recovered) and V24 (the excepted case). -/
theorem witness_Resync : State.reset.dec.rxCnt = 0
    ∧ ¬ ((0xAA#8 : Byte) = 0xAA#8 ∧ (frame setS1)[57]? = some 0xAA#8)
    ∧ ((0xAA#8 : Byte) = 0xAA#8 ∧ (frame zeroSet)[57]? = some 0xAA#8) := by decide +kernel

/-- A stale byte at the first offset that is not meaningful. -/
theorem witness_StaleWindow : sameButStale (holding [0xAA#8])
    { holding [0xAA#8] with
      dec := { (holding [0xAA#8]).dec with rxWin := (holding [0xAA#8]).dec.rxWin.set 1 0x55#8 } } :=
  ⟨(holding [0xAA#8]).dec.rxWin.set 1 0x55#8, by decide, rfl⟩

theorem witness_ScTrigger_active : (active 0).scn.scnStatus = .active := rfl
theorem witness_ScTrigger_unknown : (complete 1999).scn.scnStatus ≠ .active
    ∧ (complete 1999).cfg.nScn ≤ (2 : BitVec 8).toNat := by decide
theorem witness_ScTrigger_known : (complete 1999).scn.scnStatus ≠ .active
    ∧ (1 : BitVec 8).toNat < (complete 1999).cfg.nScn := by decide

theorem witness_ScTickInIdle : State.reset.scn.scnStatus = .idle := rfl

theorem witness_ScTickInActive_goes_on :
    (active 4998).scn.scnStatus = .active
    ∧ (timeline (active 4998).cfg (active 4998).scn.scnId).entries.length
      ≤ (active 4998).scn.fired.length
    ∧ (4999#32).toNat = min ((active 4998).scn.elapsedMs.toNat + (1#32).toNat) (2 ^ 32 - 1)
    ∧ (4999#32).toNat < (timeline (active 4998).cfg (active 4998).scn.scnId).durationMs.toNat
    ∧ (dueEntries 4999 (active 4998).scn.fired
        (timeline (active 4998).cfg (active 4998).scn.scnId)).map Prod.fst = [0, 1, 2, 3] := by decide
theorem witness_ScTickInActive_completes :
    (active 4998).scn.scnStatus = .active
    ∧ (timeline (active 4998).cfg (active 4998).scn.scnId).entries.length
      ≤ (active 4998).scn.fired.length
    ∧ (5000#32).toNat = min ((active 4998).scn.elapsedMs.toNat + (2#32).toNat) (2 ^ 32 - 1)
    ∧ (timeline (active 4998).cfg (active 4998).scn.scnId).durationMs.toNat ≤ (5000#32).toNat := by
  decide

theorem witness_ScTickInComplete_stays : (complete 1998).scn.scnStatus = .complete
    ∧ (1999#32).toNat = min ((complete 1998).scn.settleMs.toNat + (1#32).toNat) (2 ^ 32 - 1)
    ∧ (1999#32).toNat < (complete 1998).cfg.settleMs.toNat := by decide
theorem witness_ScTickInComplete_settles : (complete 1998).scn.scnStatus = .complete
    ∧ (2000#32).toNat = min ((complete 1998).scn.settleMs.toNat + (2#32).toNat) (2 ^ 32 - 1)
    ∧ (complete 1998).cfg.settleMs.toNat ≤ (2000#32).toNat := by decide

theorem witness_ScTickInComplete_invariant :
    ScnInv (complete 1998).cfg (complete 1998).scn ∧ (complete 1998).scn.scnStatus = .complete
    ∧ (complete 1998).cfg.settleMs.toNat ≤ (2000#32).toNat :=
  ⟨{ width := by decide
     idle := by decide
     known := by decide
     clear := by decide
     settle := by decide
     complete := by decide
     event := by decide
     firedDue := fun i h => absurd (h.symm.trans (none_fired i)) (by decide) },
   rfl, by decide⟩

/-- 900 and 4100 milliseconds, against 5000 in one tick. -/
theorem witness_TickSplit : (active 0).scn.scnStatus = .active
    ∧ offsetsOrdered (timeline (active 0).cfg (active 0).scn.scnId).entries = true
    ∧ (timeline (active 0).cfg (active 0).scn.scnId).entries.length ≤ (active 0).scn.fired.length
    ∧ ([900#32].map BitVec.toNat).sum + (4100#32).toNat
      = (([] : List U32).map BitVec.toNat).sum + (5000#32).toNat
    ∧ (runOps ([900#32].map .scTick) (active 0)).map (fun u => u.scn.scnStatus) = some .active
    ∧ (runOps (([] : List U32).map .scTick) (active 0)).map (fun u => u.scn.scnStatus)
      = some .active := by decide

theorem witness_OvMerge_nothing_selected :
    (⟨0x0, 1, 2, 3, 4, 5⟩ : OvSpec).mask = 0#4
    ∧ ovMerge ⟨0x2, 0, 6000, 0, 0, 0⟩ ⟨0x0, 1, 2, 3, 4, 5⟩ = ⟨0x2, 0, 6000, 0, 0, 0⟩ := by decide

theorem witness_StatusTransitions_reset : (Instr.reset).format ≠ .pseudo
    ∧ after .reset (active 0) (fun t => t.scn.scnStatus) = some .idle := by decide
theorem witness_StatusTransitions_trigger : (Instr.scTrigger 1).format ≠ .pseudo
    ∧ after (.scTrigger 1) State.reset (fun t => t.scn.scnStatus) = some .active := by decide
theorem witness_StatusTransitions_completion : (Instr.scTick 1).format ≠ .pseudo
    ∧ after (.scTick 1) (active 4999) (fun t => t.scn.scnStatus) = some .complete := by decide
theorem witness_StatusTransitions_settling : (Instr.scTick 1).format ≠ .pseudo
    ∧ after (.scTick 1) (complete 1999) (fun t => t.scn.scnStatus) = some .idle := by decide

theorem witness_ScStatus_running : (active 0).scn.scnId ≠ 0xFF#8
    ∧ ((active 0).cfg.rom[(active 0).scn.scnId.toNat]?).isSome = true
    ∧ (active 0).scn.curEvent = 0xFF#8 := by decide
theorem witness_ScStatus_event : (3 : BitVec 8) ≠ 0xFF#8
    ∧ (coolingFanFailure.entries[(3 : BitVec 8).toNat]?).isSome = true := by decide
theorem witness_ScStatus_idle : ScnInv State.reset.cfg State.reset.scn
    ∧ State.reset.scn.scnStatus = .idle ∧ State.reset.scn.scnId = 0xFF#8 :=
  ⟨scnInv_reset, rfl, rfl⟩

theorem witness_OvRead_not_active : ScnInv State.reset.cfg State.reset.scn
    ∧ State.reset.scn.scnStatus ≠ .active := ⟨scnInv_reset, by decide⟩

theorem witness_OvApply_clear : ∀ c : Fin 8, State.reset.scn.ov[c] = clearOv := by decide

theorem witness_Overrides_large_build : wellFormedTable { defaultConfig with maxEntries := 300 } = true
    ∧ ∀ c : Fin 8, ovInRange (State.resetOf { defaultConfig with maxEntries := 300 }).scn.ov[c] = true := by
  decide
theorem witness_Overrides_step : wellFormedTable (active 900).cfg = true
    ∧ (∀ c : Fin 8, ovInRange (active 900).scn.ov[c] = true)
    ∧ step (present [.scCmd 2#2 0#8 100#32] (active 900)) = exec (.scTick 100) (active 900) :=
  ⟨by decide, by decide, rfl⟩
theorem witness_Overrides_apply : validSet setS1 = true
    ∧ ∀ c : Fin 8, ovInRange (overridden 3 ⟨0x2, 0, 50000, 0, 0, 0⟩).scn.ov[c] = true := by decide

theorem witness_RstOverrides : (InPorts.mk 1 1 lanesS1 1 0xAA 0 1 0 0).rst = 1#1
    ∧ State.reset.pending = [] := ⟨rfl, rfl⟩
theorem witness_PortStep : (InPorts.mk 0 1 lanesS1 1 0xAA 0 1 0 0).rst = 0#1
    ∧ State.reset.pending = [] := ⟨rfl, rfl⟩

theorem witness_UnitsCommute : (Instr.encEmit).format = .encCmd ∧ (Instr.rxTime 1).format = .rxCmd
    ∧ (Instr.scTick 1).format = .scCmd ∧ (Instr.encEmit).format ≠ (Instr.rxTime 1).format := by decide

theorem witness_UnitsWrite :
    exec .encEmit State.reset = .next (emitByte State.reset)
    ∧ exec (.rxByte 0xAA) State.reset = .next (receiveByte 0xAA State.reset)
    ∧ exec (.scTrigger 0) State.reset = .next (triggerRun 0 State.reset)
    ∧ exec .snapRead State.reset
      = .next (State.reset.answer (.snapshot (snapView State.reset.dec))) := ⟨rfl, rfl, rfl, rfl⟩

theorem witness_Writers_enc :
    after (.encLoad setS1) State.reset (fun t => decide (t.enc.encSet ≠ State.reset.enc.encSet))
      = some true := by decide
theorem witness_Writers_dec :
    after (.rxByte 0x3E#8) (holding (bytesS1.take 57))
      (fun t => decide (t.dec.snapValid ≠ (holding (bytesS1.take 57)).dec.snapValid)) = some true := by
  decide +kernel
theorem witness_Writers_busy_set :
    after (.encLoad setS1) State.reset (fun t => t.enc.encBusy) = some true
    ∧ State.reset.enc.encBusy = false := by decide
theorem witness_Writers_busy_cleared :
    after .encEmit (emitting setS1 57) (fun t => t.enc.encBusy) = some false
    ∧ (emitting setS1 57).enc.encBusy = true := by decide
theorem witness_Writers_window :
    after (.rxByte 0xAA#8) State.reset (fun t => decide (t.dec.rxWin ≠ State.reset.dec.rxWin))
      = some true := by decide
theorem witness_Writers_link :
    after (.rxTime 1) (connected 300) (fun t => t.dec.linkStatus) = some .disconnected
    ∧ after (.rxByte 0x3E#8) (holding (bytesS1.take 57)) (fun t => t.dec.linkStatus)
      = some .connected := by decide +kernel
theorem witness_Writers_scn :
    after (.scTick 100) (active 900) (fun t => decide (t.scn.fired ≠ (active 900).scn.fired))
      = some true := by decide

theorem witness_ResetMeets_legal : legalConfig { defaultConfig with rom := [] } = true := by decide

/-- A state in mid-frame that meets every invariant, with an operation to perform. -/
theorem witness_StepKeeps : Inv (present [.encCmd 2#2 lanesS1] (emitting setS1 57))
    ∧ step (present [.encCmd 2#2 lanesS1] (emitting setS1 57))
      = .next (emitByte (emitting setS1 57)) :=
  ⟨{ legal := by decide
     enc := encInv_emitting setS1 57
     dec := decInv_reset
     scn := scnInv_reset
     streams := { window := ⟨Nat.le_refl 0, rfl⟩, frame := fun _ => ⟨[], rfl⟩ } }, rfl⟩

theorem witness_DecodeOfEncode : (Instr.rxBytes [0xAA]).wellFormed = true := rfl
theorem witness_DecodedReencode : decode (.scCmd 3#2 0x01#8 5#32) = .ok .scRsv := rfl

theorem witness_StepRuns :
    (present [.rxCmd 1#2 0xAA#8 0#32] State.reset).pending = [.rxCmd 1#2 0xAA#8 0#32]
    ∧ decode (.rxCmd 1#2 0xAA#8 0#32) = .ok (.rxByte 0xAA)
    ∧ (Instr.rxByte 0xAA).wellFormed = true := ⟨rfl, rfl, rfl⟩

theorem witness_StepHolds : State.reset.pending = [] := rfl
theorem witness_StepHolds_rst : (present [.rst 0#1] State.reset).pending = .rst 0#1 :: [] := rfl
theorem witness_StepHolds_noBytes :
    (present [.pseudoRxBytes []] State.reset).pending = .pseudoRxBytes [] :: [] := rfl

theorem witness_FetchWord : decodeTableWord 8 2 = some .encEmit := by decide

end Sys2Proof.Tests
end

section
/-! SUPPORT. Settled statements of 00_scope.md: a step runs the operation it takes, commands of different
units commute, and one image of the ports is one command of each unit. All rest on one property of a
command, `ActsOn`: it writes its own unit, and reads nothing of another. -/

namespace Sys2Proof.Machine

/-! ### One step and one operation -/

/-- A step performs the operation its oldest request decodes to. -/
theorem step_of_decode {s : State} {r : Request} {rest : List Request} {i : Instr}
    (hp : s.pending = r :: rest) (hd : decode r = .ok i) : step s = exec i (takeRequest rest s) := by
  rcases step_cases s with ⟨none, _⟩ | ⟨r', rest', hp', ⟨i', hd', hs⟩ | ⟨why, hd', _⟩⟩
  · simp [hp] at none
  all_goals
    obtain ⟨rfl, rfl⟩ := List.cons.inj (hp.symm.trans hp')
    rw [hd] at hd'
  · cases hd'
    exact hs
  · cases hd'

/-- Settles O56: taking the request off the list is `takeRequest`. -/
theorem stepRunsTheDecodedOperation : Obligations.StepRunsTheDecodedOperation := by
  intro s r rest i hp hd _
  exact step_of_decode hp hd

/-- A list of operations goes on from the state its first one answers. -/
theorem runOps_cons {i : Instr} {s t : State} (is : List Instr) (h : exec i s = .next t) :
    runOps (i :: is) s = runOps is t := by
  simp only [runOps, h]

/-- A run of steps goes on from the state its first step answers. -/
theorem runSteps_succ {s t : State} (n : Nat) (h : step s = .next t) :
    runSteps (n + 1) s = runSteps n t := by
  simp only [runSteps, h]

@[simp] theorem takeRequest_takeRequest (rs rs' : List Request) (s : State) :
    takeRequest rs (takeRequest rs' s) = takeRequest rs s := rfl

/-- Taking off what is not there changes nothing. -/
theorem takeRequest_pending_self {s : State} {rs : List Request} (h : s.pending = rs) :
    takeRequest rs s = s := by
  subst h
  rfl

/-- With nothing waiting, presenting a list makes it the presented list (log 1). -/
theorem present_of_none {s : State} (rs : List Request) (h : s.pending = []) :
    present rs s = takeRequest rs s := by
  simp [present, takeRequest, h]

/-! ### The unit behind a command port -/

/-- The three command ports (R115 to R117). -/
def commandPort (p : Format) : Prop := p = .encCmd ∨ p = .rxCmd ∨ p = .scCmd

/-- The unit behind a command port is as before; the other ports have none. -/
def portKept (p : Format) (s t : State) : Prop :=
  match p with
  | .encCmd => encKept s t
  | .rxCmd => decKept s t
  | .scCmd => scnKept s t
  | .rst | .readPort | .pseudo => True

theorem portKept_symm {p : Format} {s t : State} (h : portKept p s t) : portKept p t s := by
  cases p <;> simp_all [portKept, encKept, decKept, scnKept]

theorem portKept_trans {p : Format} {s t u : State} (h : portKept p s t) (h' : portKept p t u) :
    portKept p s u := by
  cases p <;> simp_all [portKept, encKept, decKept, scnKept]

/-- The answer is no part of a unit. -/
@[simp] theorem portKept_answer (p : Format) (s t : State) (r r' : Result) :
    portKept p (s.answer r) (t.answer r') ↔ portKept p s t := by
  cases p <;> rfl

/-- The three units, the parameters, the presented operations and the last answer are the whole state. -/
theorem state_eq_of_kept {s t : State} (units : ∀ p, portKept p s t) (rest : restKept s t)
    (answer : t.result = s.result) : s = t := by
  obtain ⟨henc, hencOut, htx⟩ : encKept s t := units .encCmd
  obtain ⟨hdec, hrx, hrxStream⟩ : decKept s t := units .rxCmd
  obtain ⟨hscn, htrig⟩ : scnKept s t := units .scCmd
  obtain ⟨hcfg, hpending⟩ := rest
  cases s
  cases t
  simp_all

/-! ### What a command reads and writes (R20) -/

/-- `f` acts on the unit behind the port `p` alone: it keeps the other units, the parameters and the
presented operations, and what it writes and answers depends on its own unit and the parameters only. -/
structure ActsOn (p : Format) (f : State → State) : Prop where
  others : ∀ (q : Format) (s : State), q ≠ p → portKept q s (f s)
  rest : ∀ s : State, restKept s (f s)
  within : ∀ s t : State, portKept p s t → t.cfg = s.cfg →
    portKept p (f s) (f t) ∧ (f t).result = (f s).result

/-- `ActsOn` for ENC, with its frame spelled out. -/
theorem actsOn_enc {f : State → State}
    (frame : ∀ s, decKept s (f s) ∧ scnKept s (f s) ∧ restKept s (f s))
    (within : ∀ s t, encKept s t → encKept (f s) (f t) ∧ (f t).result = (f s).result) :
    ActsOn .encCmd f where
  others q s hq := by
    obtain ⟨hdec, hscn, _⟩ := frame s
    cases q with
    | encCmd => exact absurd rfl hq
    | rxCmd => exact hdec
    | scCmd => exact hscn
    | rst | readPort | pseudo => trivial
  rest s := (frame s).2.2
  within s t h _ := within s t h

/-- `ActsOn` for DEC, with its frame spelled out. -/
theorem actsOn_dec {f : State → State}
    (frame : ∀ s, encKept s (f s) ∧ scnKept s (f s) ∧ restKept s (f s))
    (within : ∀ s t, decKept s t → t.cfg = s.cfg →
      decKept (f s) (f t) ∧ (f t).result = (f s).result) :
    ActsOn .rxCmd f where
  others q s hq := by
    obtain ⟨henc, hscn, _⟩ := frame s
    cases q with
    | rxCmd => exact absurd rfl hq
    | encCmd => exact henc
    | scCmd => exact hscn
    | rst | readPort | pseudo => trivial
  rest s := (frame s).2.2
  within := within

/-- `ActsOn` for SCN, with its frame spelled out. -/
theorem actsOn_scn {f : State → State}
    (frame : ∀ s, encKept s (f s) ∧ decKept s (f s) ∧ restKept s (f s))
    (within : ∀ s t, scnKept s t → t.cfg = s.cfg →
      scnKept (f s) (f t) ∧ (f t).result = (f s).result) :
    ActsOn .scCmd f where
  others q s hq := by
    obtain ⟨henc, hdec, _⟩ := frame s
    cases q with
    | scCmd => exact absurd rfl hq
    | encCmd => exact henc
    | rxCmd => exact hdec
    | rst | readPort | pseudo => trivial
  rest s := (frame s).2.2
  within := within

theorem encIdle_actsOn : ActsOn .encCmd fun s => (encIdle s).answer .silent :=
  actsOn_enc (by simp [encIdle, decKept, scnKept, restKept])
    fun s t ⟨henc, _, htx⟩ => by simp [encIdle, encKept, henc, htx]

theorem loadSet_actsOn (set : ChannelSet) : ActsOn .encCmd (loadSet set) := by
  refine actsOn_enc (loadSet_frame set) fun s t ⟨henc, _, htx⟩ => ?_
  cases busy : s.enc.encBusy <;> simp [loadSet, henc, busy, htx, encKept]

theorem emitByte_actsOn : ActsOn .encCmd emitByte := by
  refine actsOn_enc emitByte_frame fun s t ⟨henc, _, htx⟩ => ?_
  cases busy : s.enc.encBusy <;> simp [emitByte, henc, busy, htx, encKept]

theorem rxIdle_actsOn : ActsOn .rxCmd fun s => (rxIdle s).answer .silent :=
  actsOn_dec (by simp [rxIdle, encKept, scnKept, restKept])
    fun s t ⟨hdec, _, hrx⟩ _ => by simp [rxIdle, decKept, hdec, hrx]

theorem receiveByte_actsOn (b : Byte) : ActsOn .rxCmd (receiveByte b) :=
  actsOn_dec (receiveByte_frame b) fun s t ⟨hdec, _, hrx⟩ _ => by
    simp [receiveByte, decKept, hdec, hrx]

theorem passRxTime_actsOn (dt : U32) : ActsOn .rxCmd fun s => (passRxTime dt s).answer .silent :=
  actsOn_dec (by simp [passRxTime, encKept, scnKept, restKept])
    fun s t ⟨hdec, _, hrx⟩ hcfg => by simp [passRxTime, decKept, hdec, hrx, hcfg]

theorem scIdle_actsOn : ActsOn .scCmd fun s => (scIdle s).answer .silent :=
  actsOn_scn (by simp [scIdle, encKept, decKept, restKept])
    fun s t ⟨hscn, _⟩ _ => by simp [scIdle, scnKept, hscn]

theorem triggerRun_actsOn (id : BitVec 8) : ActsOn .scCmd (triggerRun id) :=
  actsOn_scn (triggerRun_frame id) fun s t ⟨hscn, _⟩ hcfg => by
    simp [triggerRun, scnKept, hscn, hcfg]

theorem tickRun_actsOn (dt : U32) : ActsOn .scCmd fun s => (tickRun dt s).answer .silent :=
  actsOn_scn (by simp [tickRun, encKept, decKept, restKept])
    fun s t ⟨hscn, _⟩ hcfg => by simp [tickRun, scnKept, hscn, hcfg]

/-- Every command is enabled in every state and acts on the unit of its port alone (R20, R273). -/
theorem command_actsOn {i : Instr} (h : commandPort i.format) :
    ∃ f, (∀ s, exec i s = .next (f s)) ∧ ActsOn i.format f := by
  cases i with
  | encNop | encRsv => exact ⟨_, fun _ => rfl, encIdle_actsOn⟩
  | encLoad set => exact ⟨_, fun _ => rfl, loadSet_actsOn set⟩
  | encEmit => exact ⟨_, fun _ => rfl, emitByte_actsOn⟩
  | rxNop | rxRsv => exact ⟨_, fun _ => rfl, rxIdle_actsOn⟩
  | rxByte b => exact ⟨_, fun _ => rfl, receiveByte_actsOn b⟩
  | rxTime dt => exact ⟨_, fun _ => rfl, passRxTime_actsOn dt⟩
  | scNop | scRsv => exact ⟨_, fun _ => rfl, scIdle_actsOn⟩
  | scTrigger id => exact ⟨_, fun _ => rfl, triggerRun_actsOn id⟩
  | scTick dt => exact ⟨_, fun _ => rfl, tickRun_actsOn dt⟩
  | reset | snapRead | scStatus | ovRead | ovApply | encode | rxBytes | decode | scTicks | produce =>
    simp [commandPort, Instr.format] at h

/-! ### Commands of different units commute (R15) -/

/-- Each unit is written by the one of the two that acts on it, which finds it the same in both orders. -/
theorem ActsOn.commute {p q : Format} {f g : State → State} (hf : ActsOn p f) (hg : ActsOn q g)
    (hpq : p ≠ q) (s : State) : (g (f s)).answer .silent = (f (g s)).answer .silent := by
  obtain ⟨cfgf, pendf⟩ := hf.rest s
  obtain ⟨cfgg, pendg⟩ := hg.rest s
  obtain ⟨cfgfg, pendfg⟩ := hf.rest (g s)
  obtain ⟨cfggf, pendgf⟩ := hg.rest (f s)
  have units : ∀ r, portKept r (g (f s)) (f (g s)) := by
    intro r
    by_cases hp : r = p
    · subst hp
      have same : portKept r (f s) (f (g s)) := (hf.within _ _ (hg.others r s hpq) cfgg).1
      exact portKept_trans (portKept_symm (hg.others r (f s) hpq)) same
    · by_cases hq : r = q
      · subst hq
        have same : portKept r (g s) (g (f s)) := (hg.within _ _ (hf.others r s hp) cfgf).1
        exact portKept_trans (portKept_symm same) (hf.others r (g s) hp)
      · have first : portKept r s (g (f s)) :=
          portKept_trans (hf.others r s hp) (hg.others r (f s) hq)
        have second : portKept r s (f (g s)) :=
          portKept_trans (hg.others r s hq) (hf.others r (g s) hp)
        exact portKept_trans (portKept_symm first) second
  refine state_eq_of_kept (fun r => (portKept_answer r _ _ _ _).mpr (units r)) ?_ rfl
  simp [restKept, *]

/-- Settles O47: each command acts on the unit of its own port, and the two ports differ. -/
theorem unitsCommute : Obligations.UnitsCommute := by
  intro i j s hi hj hij
  obtain ⟨f, execf, hf⟩ := command_actsOn hi
  obtain ⟨g, execg, hg⟩ := command_actsOn hj
  refine ⟨g (f s), f (g s), ?_, ?_, hf.commute hg hij s⟩
  · rw [runOps_cons _ (execf s), runOps_cons _ (execg (f s)), runOps]
  · rw [runOps_cons _ (execg s), runOps_cons _ (execf (g s)), runOps]

/-! ### One image of the ports (R15, R115 to R117) -/

theorem decodeEncCmd_format (cmd : BitVec 2) (din : SetLanes) :
    (decodeEncCmd cmd din).format = .encCmd := by
  unfold decodeEncCmd
  split <;> rfl

theorem decodeRxCmd_format (cmd : BitVec 2) (data : Byte) (dt : U32) :
    (decodeRxCmd cmd data dt).format = .rxCmd := by
  unfold decodeRxCmd
  split <;> rfl

theorem decodeScCmd_format (cmd : BitVec 2) (id : BitVec 8) (dt : U32) :
    (decodeScCmd cmd id dt).format = .scCmd := by
  unfold decodeScCmd
  split <;> rfl

/-- A command does the same whatever is still presented. -/
theorem ActsOn.apply_takeRequest {p : Format} {f : State → State} (hf : ActsOn p f)
    (rs : List Request) (s : State) :
    f (takeRequest rs s) = takeRequest rs (f s) := by
  obtain ⟨cfg, _⟩ := hf.rest s
  obtain ⟨cfg', pend'⟩ := hf.rest (takeRequest rs s)
  have taken : ∀ r u, portKept r u (takeRequest rs u) := by
    intro r u
    cases r <;> simp [portKept, encKept, decKept, scnKept]
  obtain ⟨own, answer⟩ := hf.within s (takeRequest rs s) (taken p s) rfl
  have units : ∀ r, portKept r (f s) (f (takeRequest rs s)) := by
    intro r
    by_cases hr : r = p
    · exact hr ▸ own
    · exact portKept_trans (portKept_symm (hf.others r s hr))
        (portKept_trans (taken r s) (hf.others r _ hr))
  refine state_eq_of_kept
    (fun r => portKept_trans (portKept_symm (units r)) (taken r (f s))) ?_ answer.symm
  simp [restKept, cfg, cfg', pend']

/-- `r` asks for the command `i`. -/
def asksFor (r : Request) (i : Instr) : Prop := decode r = .ok i ∧ commandPort i.format

/-- Steps on presented commands perform those commands in order, one each, and end with none presented. -/
theorem runSteps_commands {rs : List Request} {is : List Instr} (h : List.Forall₂ asksFor rs is)
    (s : State) : ∃ t, runSteps rs.length (takeRequest rs s) = some (takeRequest [] t)
      ∧ runOps is s = some t ∧ t.pending = s.pending := by
  induction h generalizing s with
  | nil => exact ⟨s, rfl, rfl, rfl⟩
  | @cons r i rs is asks _ ih =>
    obtain ⟨hd, hi⟩ := asks
    obtain ⟨f, execf, hf⟩ := command_actsOn hi
    have one : step (takeRequest (r :: rs) s) = .next (takeRequest rs (f s)) := by
      rw [step_of_decode (takeRequest_pending s _) hd, takeRequest_takeRequest, execf, hf.apply_takeRequest]
    obtain ⟨t, steps, ops, pend⟩ := ih (f s)
    obtain ⟨_, pendf⟩ := hf.rest s
    exact ⟨t, (runSteps_succ _ one).trans steps, (runOps_cons _ (execf s)).trans ops, pend.trans pendf⟩

/-- With `rst` = 0 the requests of a port image ask for one command of each unit (R15, R115 to R117). -/
theorem requests_askFor {p : InPorts} (h : p.rst = 0#1) :
    List.Forall₂ asksFor p.requests
      [decodeEncCmd p.encCmd p.encDin, decodeRxCmd p.rxCmd p.rxData p.rxDtMs,
        decodeScCmd p.scCmd p.scId p.scDtMs] := by
  have low : p.requests
      = [.encCmd p.encCmd p.encDin, .rxCmd p.rxCmd p.rxData p.rxDtMs,
          .scCmd p.scCmd p.scId p.scDtMs] := by
    simp [InPorts.requests, h]
  rw [low]
  exact .cons ⟨rfl, .inl (decodeEncCmd_format _ _)⟩
    (.cons ⟨rfl, .inr (.inl (decodeRxCmd_format _ _ _))⟩
      (.cons ⟨rfl, .inr (.inr (decodeScCmd_format _ _ _))⟩ .nil))

/-- Settles O46: the three requests of the ports are three commands, each performed by one step. -/
theorem portStepRunsOneCommandPerUnit : Obligations.PortStepRunsOneCommandPerUnit := by
  intro p s hrst hnone
  have asks := requests_askFor hrst
  obtain ⟨t, steps, ops, pend⟩ := runSteps_commands asks s
  rw [asks.length_eq] at steps
  rw [takeRequest_pending_self (pend.trans hnone)] at steps
  rw [present_of_none _ hnone]
  exact ⟨t, steps, ops⟩

end Sys2Proof.Machine
end

section
/-! SUPPORT. For each unit, once, what an operation can do to its registers and its stream; the proofs about
all operations go through these cases. -/

namespace Sys2Proof.Machine

/-! ### A whole frame -/

/-- ENC after all 58 bytes of a frame: idle, holding the set and its range flag (R136, R137). -/
def sentEnc (set : ChannelSet) : Enc := { loadedEnc set with encBusy := false }

/-- The ENC_EMITs that are left of a frame end it (R136). -/
theorem emitBytes_enc_of_busy {n : Nat} {s : State} (busy : s.enc.encBusy = true)
    (left : s.enc.encIdx.val + n = 58) :
    (emitBytes n s).2.enc = { s.enc with encBusy := false, encIdx := 0, encXor := 0x00#8 } := by
  induction n generalizing s with
  | zero => exact absurd s.enc.encIdx.isLt (by omega)
  | succ n ih =>
    rw [emitBytes_succ]
    rcases emitByte_cases s with ⟨idle, _⟩ | ⟨_, below, h⟩ | ⟨_, last, h⟩
    · simp [busy] at idle
    · have idx : (emitByte s).enc.encIdx.val = s.enc.encIdx.val + 1 := by
        simp [h, Nat.mod_eq_of_lt (show s.enc.encIdx.val + 1 < 58 by omega)]
      have next := ih (s := emitByte s) (by simp [h, busy]) (by omega)
      simpa [h] using next
    · obtain rfl : n = 0 := by omega
      simp [h]

/-- ENCODE from idle leaves ENC idle again, holding the set (R137). -/
theorem encodeSet_enc_of_idle (set : ChannelSet) {s : State} (idle : s.enc.encBusy = false) :
    (encodeSet set s).enc = sentEnc set := by
  have load : loadSet set s
      = (s.setEnc (loadedEnc set) { EncOut.quiet with encAck := true }).answer (.ack true) := by
    simp [loadSet, idle]
  have sent := emitBytes_enc_of_busy (n := 58) (s := loadSet set s)
    (by simp [load, loadedEnc]) (by simp [load, loadedEnc])
  simpa [encodeSet, load, sentEnc, loadedEnc] using sent

/-- A refused ENCODE keeps ENC's registers and the tx stream (log 14). -/
theorem encodeSet_enc_of_busy (set : ChannelSet) {s : State} (busy : s.enc.encBusy = true) :
    (encodeSet set s).enc = s.enc ∧ (encodeSet set s).txStream = s.txStream := by
  rw [encodeSet_busy set s busy]
  simp [loadSet, busy]

/-! ### The snapshot cell and the link -/

/-- What DEC publishes is as before: the snapshot cell, the link and the silence it rests on. -/
def publishedKept (d e : Dec) : Prop :=
  e.snap = d.snap ∧ e.snapTimeMs = d.snapTimeMs ∧ e.snapValid = d.snapValid
    ∧ e.linkStatus = d.linkStatus ∧ e.silenceMs = d.silenceMs

theorem pendDec_publishedKept (d : Dec) (b : Byte) : publishedKept d (pendDec d b) :=
  ⟨rfl, rfl, rfl, rfl, rfl⟩

theorem failDec_publishedKept (d : Dec) (b : Byte) : publishedKept d (failDec d b) := by
  simp [publishedKept, failDec, storeByte]

/-! ### The three units under an operation -/

/-- What the operation `i` from `s` to `t` did to ENC. -/
inductive EncChange (i : Instr) (s t : State) : Prop
  | kept (enc : t.enc = s.enc) (tx : t.txStream = s.txStream)
  | reset (op : i = .reset) (enc : t.enc = Enc.reset)
  | loaded (set : ChannelSet) (op : i = .encLoad set) (idle : s.enc.encBusy = false)
      (enc : t.enc = loadedEnc set)
  | emitted (op : i = .encEmit) (busy : s.enc.encBusy = true) (enc : t.enc = emittedEnc s.enc)
      (tx : t.txStream = s.txStream ++ [nextTxByte s.enc])
  | sent (set : ChannelSet) (op : (∃ set, i = .encode set) ∨ ∃ dt nom, i = .produce dt nom)
      (idle : s.enc.encBusy = false) (enc : t.enc = sentEnc set)

/-- What the operation `i` from `s` to `t` did to DEC. -/
inductive DecChange (i : Instr) (s t : State) : Prop
  | kept (dec : t.dec = s.dec) (rx : t.rxStream = s.rxStream)
  | reset (op : i = .reset) (dec : t.dec = Dec.reset) (rx : t.rxStream = [])
  | byte (b : Byte) (op : i = .rxByte b) (next : t = receiveByte b s)
  | bytes (bs : List Byte) (op : i = .rxBytes bs)
      (next : t = (receiveBytes bs s).2.answer (.rxs (receiveBytes bs s).1))
  | time (dt : U32) (op : i = .rxTime dt) (dec : t.dec = passTime s.cfg.linkTimeoutMs s.dec dt)
      (rx : t.rxStream = s.rxStream)

/-- What the operation `i` from `s` to `t` did to SCN. -/
inductive ScnChange (i : Instr) (s t : State) : Prop
  | kept (scn : t.scn = s.scn)
  | reset (op : i = .reset) (scn : t.scn = Scn.reset s.cfg.maxEntries)
  | started (id : BitVec 8) (op : i = .scTrigger id) (known : id.toNat < s.cfg.nScn)
      (scn : t.scn = startedScn s.cfg id)
  | ticked (n : Nat) (dt : U32)
      (op : i = .scTick dt ∨ i = .scTicks n dt ∨ ∃ nom, i = .produce dt nom)
      (scn : t.scn = (tickRuns n dt s).scn)

theorem EncChange.of_encKept {i : Instr} {s t : State} (h : encKept s t) : EncChange i s t := by
  obtain ⟨enc, _, tx⟩ := h
  exact .kept enc tx

theorem DecChange.of_decKept {i : Instr} {s t : State} (h : decKept s t) : DecChange i s t := by
  obtain ⟨dec, _, rx⟩ := h
  exact .kept dec rx

theorem ScnChange.of_scnKept {i : Instr} {s t : State} (h : scnKept s t) : ScnChange i s t := by
  obtain ⟨scn, _⟩ := h
  exact .kept scn

/-- What an operation does to ENC is one of these changes. -/
theorem exec_encChange {i : Instr} {s t : State} (h : exec i s = .next t) : EncChange i s t := by
  cases i with
  | encNop | encRsv | rxNop | rxByte | rxTime | rxRsv | scNop | scTick | scRsv | snapRead | scStatus | ovRead
  | ovApply | decode =>
    cases h
    exact .kept rfl rfl
  | encLoad set =>
    cases h
    rcases loadSet_cases set s with ⟨idle, load⟩ | ⟨_, load⟩
    · exact .loaded set rfl idle (by simp [load])
    · exact .kept (by simp [load]) (by simp [load])
  | encEmit =>
    cases h
    cases busy : s.enc.encBusy with
    | false => exact .kept (by simp [emitByte, busy]) (by simp [emitByte, busy])
    | true => exact .emitted rfl busy (by simp [emitByte, busy]) (by simp [emitByte, busy])
  | scTrigger id =>
    cases h
    exact .of_encKept (triggerRun_frame id s).1
  | reset =>
    cases h
    exact .reset rfl rfl
  | encode set =>
    cases h
    cases busy : s.enc.encBusy with
    | false => exact .sent set (.inl ⟨set, rfl⟩) busy (encodeSet_enc_of_idle set busy)
    | true =>
      obtain ⟨enc, tx⟩ := encodeSet_enc_of_busy set busy
      exact .kept enc tx
  | rxBytes bs =>
    cases h
    exact .of_encKept (receiveBytes_frame bs s).1
  | scTicks n dt =>
    cases h
    exact .of_encKept (tickRuns_frame n dt s).1
  | produce dt nom =>
    cases h
    cases busy : s.enc.encBusy with
    | false =>
      exact .sent _ (.inr ⟨dt, nom, rfl⟩) busy (encodeSet_enc_of_idle (s := tickRun dt s) _ busy)
    | true =>
      obtain ⟨enc, tx⟩ := encodeSet_enc_of_busy (s := tickRun dt s) _ busy
      exact .kept enc tx

/-- What an operation does to DEC is one of these changes. -/
theorem exec_decChange {i : Instr} {s t : State} (h : exec i s = .next t) : DecChange i s t := by
  cases i with
  | encNop | encRsv | rxNop | rxRsv | scNop | scTick | scRsv | snapRead | scStatus | ovRead | ovApply
  | decode =>
    cases h
    exact .kept rfl rfl
  | encLoad set =>
    cases h
    exact .of_decKept (loadSet_frame set s).1
  | encEmit =>
    cases h
    exact .of_decKept (emitByte_frame s).1
  | rxByte b =>
    cases h
    exact .byte b rfl rfl
  | rxTime dt =>
    cases h
    exact .time dt rfl rfl rfl
  | scTrigger id =>
    cases h
    exact .of_decKept (triggerRun_frame id s).2.1
  | reset =>
    cases h
    exact .reset rfl rfl rfl
  | encode set =>
    cases h
    exact .of_decKept (encodeSet_frame set s).1
  | rxBytes bs =>
    cases h
    exact .bytes bs rfl rfl
  | scTicks n dt =>
    cases h
    exact .of_decKept (tickRuns_frame n dt s).2.1
  | produce dt nom =>
    cases h
    exact .of_decKept (encodeSet_frame (applyOvs (tickRun dt s).scn.ov nom) (tickRun dt s)).1

/-- What an operation does to SCN is one of these changes. -/
theorem exec_scnChange {i : Instr} {s t : State} (h : exec i s = .next t) : ScnChange i s t := by
  cases i with
  | encNop | encRsv | rxNop | rxByte | rxTime | rxRsv | scNop | scRsv | snapRead | scStatus | ovRead
  | ovApply | decode =>
    cases h
    exact .kept rfl
  | encLoad set =>
    cases h
    exact .of_scnKept (loadSet_frame set s).2.1
  | encEmit =>
    cases h
    exact .of_scnKept (emitByte_frame s).2.1
  | scTrigger id =>
    cases h
    rcases triggerRun_cases id s with ⟨_, run⟩ | ⟨_, _, run⟩ | ⟨_, known, run⟩
    · exact .kept (by simp [run])
    · exact .kept (by simp [run])
    · exact .started id rfl known (by simp [run])
  | scTick dt =>
    cases h
    exact .ticked 1 dt (.inl rfl) rfl
  | reset =>
    cases h
    exact .reset rfl rfl
  | encode set =>
    cases h
    exact .of_scnKept (encodeSet_frame set s).2.1
  | rxBytes bs =>
    cases h
    exact .of_scnKept (receiveBytes_frame bs s).2.1
  | scTicks n dt =>
    cases h
    exact .ticked n dt (.inr (.inl rfl)) rfl
  | produce dt nom =>
    cases h
    obtain ⟨_, ⟨scn, _⟩, _⟩ := encodeSet_frame (applyOvs (tickRun dt s).scn.ov nom) (tickRun dt s)
    exact .ticked 1 dt (.inr (.inr ⟨nom, rfl⟩)) scn

/-! ### The parameters and the presented operations -/

/-- No operation writes the parameters or takes a presented request (R56, log 1). -/
theorem exec_restKept {i : Instr} {s t : State} (h : exec i s = .next t) : restKept s t := by
  cases i with
  | encNop | encRsv | rxNop | rxByte | rxTime | rxRsv | scNop | scTick | scRsv | reset | snapRead | scStatus
  | ovRead | ovApply | decode =>
    cases h
    exact ⟨rfl, rfl⟩
  | encLoad set =>
    cases h
    exact (loadSet_frame set s).2.2
  | encEmit =>
    cases h
    exact (emitByte_frame s).2.2
  | scTrigger id =>
    cases h
    exact (triggerRun_frame id s).2.2
  | encode set =>
    cases h
    exact (encodeSet_frame set s).2.2
  | rxBytes bs =>
    cases h
    exact (receiveBytes_frame bs s).2.2
  | scTicks n dt =>
    cases h
    exact (tickRuns_frame n dt s).2.2
  | produce dt nom =>
    cases h
    exact (encodeSet_frame _ (tickRun dt s)).2.2

end Sys2Proof.Machine
end

section
/-! SUPPORT. Settled statements on the invariants of 10_state.md R57: each unit keeps its own items under every
change an operation can make, so every step keeps them all; reset meets them. -/

namespace Sys2Proof.Machine

/-! ### The invariants, unit by unit -/

/-- The invariants of ENC and the tx stream (R57 items 1 and 2, R60). -/
structure EncUnitInv (e : Enc) (tx : List Byte) : Prop where
  regs : EncInv e
  frame : e.encBusy = true → ∃ before, tx = before ++ (frame e.encSet).take e.encIdx.val

/-- The invariants of DEC and the rx stream (R57 items 4, 5 and 14, R61, R62). -/
structure DecUnitInv (cfg : Config) (d : Dec) (rx : List Byte) : Prop where
  regs : DecInv cfg d
  count : d.rxCnt.val ≤ rx.length
  window : d.rxWin.toList.take d.rxCnt.val = rx.drop (rx.length - d.rxCnt.val)

/-- The invariants are those of the three units, in a legal build. -/
theorem inv_iff_units {s : State} :
    Inv s ↔ legalConfig s.cfg = true ∧ EncUnitInv s.enc s.txStream
      ∧ DecUnitInv s.cfg s.dec s.rxStream ∧ ScnInv s.cfg s.scn := by
  constructor
  · rintro ⟨legal, enc, dec, scn, ⟨count, window⟩, frame⟩
    exact ⟨legal, ⟨enc, frame⟩, ⟨dec, count, window⟩, scn⟩
  · rintro ⟨legal, ⟨enc, frame⟩, ⟨dec, count, window⟩, scn⟩
    exact ⟨legal, enc, dec, scn, ⟨count, window⟩, frame⟩

/-! ### ENC -/

/-- An idle ENC at offset 0 with a clear checksum meets the invariants, whatever was emitted. -/
theorem encUnitInv_of_idle {e : Enc} {tx : List Byte} (busy : e.encBusy = false) (idx : e.encIdx = 0)
    (sum : e.encXor = 0x00#8) : EncUnitInv e tx where
  regs := { idle := fun _ => ⟨idx, sum⟩, busy := fun h => by simp [busy] at h }
  frame h := by simp [busy] at h

theorem encUnitInv_loadedEnc (set : ChannelSet) (tx : List Byte) : EncUnitInv (loadedEnc set) tx where
  regs := { idle := fun h => by simp [loadedEnc] at h, busy := fun _ => rfl }
  frame _ := ⟨tx, by simp [loadedEnc]⟩

/-- A busy ENC below offset 57 after it emitted a byte (R135). -/
theorem emittedEnc_of_lt {e : Enc} (h : e.encIdx.val < 57) :
    nextTxByte e = fbyte e.encSet e.encIdx.val
      ∧ emittedEnc e = { e with encXor := e.encXor ^^^ fbyte e.encSet e.encIdx.val
                                encIdx := Fin.ofNat 58 (e.encIdx.val + 1) } := by
  simp [nextTxByte, emittedEnc, h]

/-- A busy ENC at offset 57 after it emitted the checksum (R136). -/
theorem emittedEnc_of_not_lt {e : Enc} (h : ¬ e.encIdx.val < 57) :
    emittedEnc e = { e with encBusy := false, encIdx := 0, encXor := 0x00#8 } := by
  simp [emittedEnc, h]

/-- One byte further, the running checksum and the tx stream are one byte further too (R57 item 2, R73). -/
theorem encUnitInv_emittedEnc {e : Enc} {tx : List Byte} (inv : EncUnitInv e tx) (busy : e.encBusy = true) :
    EncUnitInv (emittedEnc e) (tx ++ [nextTxByte e]) := by
  by_cases below : e.encIdx.val < 57
  · obtain ⟨byte, next⟩ := emittedEnc_of_lt below
    have idx : (Fin.ofNat 58 (e.encIdx.val + 1)).val = e.encIdx.val + 1 :=
      Nat.mod_eq_of_lt (by omega)
    obtain ⟨before, sent⟩ := inv.frame busy
    rw [next, byte]
    refine ⟨⟨fun idle => by simp [busy] at idle, fun _ => ?_⟩, fun _ => ⟨before, ?_⟩⟩
    · simp only [idx]
      rw [xor8_frame_take_succ _ below, inv.regs.busy busy]
    · simp only [idx]
      rw [frame_take_succ _ below, sent, List.append_assoc]
  · rw [emittedEnc_of_not_lt below]
    exact encUnitInv_of_idle rfl rfl rfl

theorem EncChange.keeps_inv {i : Instr} {s t : State} (change : EncChange i s t)
    (inv : EncUnitInv s.enc s.txStream) : EncUnitInv t.enc t.txStream := by
  cases change with
  | kept enc tx => rwa [enc, tx]
  | reset _ enc =>
    rw [enc]
    exact encUnitInv_of_idle rfl rfl rfl
  | loaded set _ _ enc =>
    rw [enc]
    exact encUnitInv_loadedEnc set _
  | emitted _ busy enc tx =>
    rw [enc, tx]
    exact encUnitInv_emittedEnc inv busy
  | sent set _ _ enc =>
    rw [enc]
    exact encUnitInv_of_idle rfl rfl rfl

/-! ### DEC -/

theorem decInv_reset_of (cfg : Config) : DecInv cfg Dec.reset where
  connected h := by simp [Dec.reset] at h
  invalid _ := ⟨rfl, rfl, rfl⟩
  reserved c := by
    change zeroSet[c].status &&& ST_RSVD = 0
    rw [zeroSet_get]
    rfl

theorem decUnitInv_reset (cfg : Config) : DecUnitInv cfg Dec.reset [] :=
  ⟨decInv_reset_of cfg, Nat.le_refl 0, rfl⟩

/-- The status a frame carries has no reserved bit (R94, R95). -/
theorem carriedStatus_reserved (st : Byte) : carriedStatus st &&& ST_RSVD = 0 := by
  have disjoint : ST_CARRIED &&& ST_RSVD = 0 := rfl
  rw [carriedStatus, BitVec.and_assoc, disjoint]
  exact BitVec.and_zero

/-- A published snapshot is fresh and carries no reserved status bit (R57 items 4, 5 and 14, R173). -/
theorem decInv_acceptDec (cfg : Config) (d : Dec) (b : Byte) (f : List Byte) :
    DecInv cfg (acceptDec d b (parse f)) where
  connected _ := ⟨rfl, Nat.zero_le _⟩
  invalid h := by simp [acceptDec] at h
  reserved c := by
    rw [show (acceptDec d b (parse f)).snap = parse f from rfl, parse_get]
    exact carriedStatus_reserved _

theorem decInv_of_publishedKept {cfg : Config} {d e : Dec} (inv : DecInv cfg d) (same : publishedKept d e) :
    DecInv cfg e := by
  obtain ⟨snap, time, valid, link, silence⟩ := same
  refine ⟨?_, ?_, ?_⟩
  · rw [link, valid, silence]
    exact inv.connected
  · rw [valid, snap, time, link]
    exact inv.invalid
  · rw [snap]
    exact inv.reserved

/-- RX_TIME drops the link once the silence is above the timeout (R176). -/
theorem decInv_passTime {cfg : Config} {d : Dec} (inv : DecInv cfg d) (dt : U32) :
    DecInv cfg (passTime cfg.linkTimeoutMs d dt) where
  connected h := by
    cases out : timedOut cfg.linkTimeoutMs (satAdd32 d.silenceMs dt) with
    | true => simp [passTime, out] at h
    | false =>
      obtain ⟨valid, _⟩ := inv.connected (by simpa [passTime, out] using h)
      have heard : ¬ cfg.linkTimeoutMs.toNat < (satAdd32 d.silenceMs dt).toNat := of_decide_eq_false out
      exact ⟨valid, Nat.le_of_not_lt heard⟩
  invalid h := by
    obtain ⟨snap, time, link⟩ := inv.invalid h
    exact ⟨snap, time, by simp [passTime, link]⟩
  reserved := inv.reserved

/-- The window and the new byte are the rx stream, with the new byte, from the cursor on (R170). -/
theorem windowWith_of_stream {d : Dec} {rx : List Byte} (b : Byte)
    (window : d.rxWin.toList.take d.rxCnt.val = rx.drop (rx.length - d.rxCnt.val)) :
    windowWith d b = (rx ++ [b]).drop (rx.length - d.rxCnt.val) := by
  rw [windowWith, window, List.drop_append_of_le_length (by omega)]

/-- RX_BYTE moves the window along the rx stream: kept, taken as a frame, or dropped at the cursor
(R172 to R174). -/
theorem decUnitInv_receive {cfg : Config} {d : Dec} {rx : List Byte} (inv : DecUnitInv cfg d rx) (b : Byte) :
    DecUnitInv cfg (receive d b).1 (rx ++ [b]) := by
  obtain ⟨regs, count, window⟩ := inv
  have stream := windowWith_of_stream b window
  have failed (full : d.rxCnt.val = 57) : DecUnitInv cfg (failDec d b) (rx ++ [b]) := by
    refine ⟨decInv_of_publishedKept regs (failDec_publishedKept d b), ?_, ?_⟩
    · simp [failDec]
      omega
    · rw [failDec_window d b full, stream, List.drop_drop]
      congr 1
      simp [failDec]
      omega
  rcases receive_cases d b with ⟨part, h⟩ | ⟨_, _, _, h⟩ | ⟨full, _, h⟩ | ⟨full, _, _, h⟩
  · have cnt : (pendDec d b).rxCnt.val = d.rxCnt.val + 1 := Nat.mod_eq_of_lt (by omega)
    rw [h]
    refine ⟨decInv_of_publishedKept regs (pendDec_publishedKept d b), ?_, ?_⟩
    · simp [cnt]
      omega
    · rw [pendDec_window d b part, stream, cnt]
      congr 1
      simp
  · rw [h]
    exact ⟨decInv_acceptDec cfg d b _, Nat.zero_le _, by simp [acceptDec]⟩
  · rw [h]
    exact failed full
  · rw [h]
    exact failed full

theorem decUnitInv_receiveBytes {cfg : Config} (bs : List Byte) {s : State}
    (inv : DecUnitInv cfg s.dec s.rxStream) :
    DecUnitInv cfg (receiveBytes bs s).2.dec (receiveBytes bs s).2.rxStream := by
  induction bs generalizing s with
  | nil => exact inv
  | cons b bs ih => exact ih (s := receiveByte b s) (decUnitInv_receive inv b)

theorem DecChange.keeps_inv {i : Instr} {s t : State} (change : DecChange i s t)
    (inv : DecUnitInv s.cfg s.dec s.rxStream) : DecUnitInv s.cfg t.dec t.rxStream := by
  cases change with
  | kept dec rx => rwa [dec, rx]
  | reset _ dec rx =>
    rw [dec, rx]
    exact decUnitInv_reset _
  | byte b _ next =>
    rw [next]
    exact decUnitInv_receive inv b
  | bytes bs _ next =>
    rw [next]
    exact decUnitInv_receiveBytes bs inv
  | time dt _ dec rx =>
    rw [dec, rx]
    exact ⟨decInv_passTime inv.regs dt, inv.count, inv.window⟩

/-! ### SCN -/

theorem scnInv_reset_of (cfg : Config) : ScnInv cfg (Scn.reset cfg.maxEntries) where
  width := by simp [Scn.reset]
  idle _ := rfl
  known h := absurd rfl h
  clear _ := rfl
  settle _ := rfl
  complete h := by simp [Scn.reset] at h
  event h := absurd rfl h
  firedDue i h := by simp [Scn.reset] at h

/-- A run starts with nothing fired and no event (R210). -/
theorem scnInv_startedScn {cfg : Config} {id : BitVec 8} (known : id.toNat < cfg.nScn) :
    ScnInv cfg (startedScn cfg id) where
  width := by simp [startedScn]
  idle h := by simp [startedScn] at h
  known _ := known
  clear h := absurd rfl h
  settle _ := rfl
  complete h := by simp [startedScn] at h
  event h := absurd rfl h
  firedDue i h := by simp [startedScn] at h

/-- A timeline of a legal build fits in `fired` and in `cur_event` (WF1, R49, log 7). -/
theorem timeline_length_of_legal {cfg : Config} (legal : legalConfig cfg = true) {id : BitVec 8}
    (known : id.toNat < cfg.nScn) :
    (timeline cfg id).entries.length ≤ cfg.maxEntries ∧ (timeline cfg id).entries.length ≤ 256 := by
  have mem : timeline cfg id ∈ cfg.rom := by
    rw [timeline, List.getD_eq_getElem _ _ known]
    exact List.getElem_mem known
  simp only [legalConfig, entriesFit, Bool.and_eq_true, decide_eq_true_eq, List.all_eq_true] at legal
  exact legal.2 _ mem

/-- What the loop of a tick keeps of its working copies (R57 items 11 and 12, R222). -/
structure FiringInv (tl : Scenario) (now : U32) (w : Firing) : Prop where
  width : tl.entries.length ≤ w.fired.length
  event : w.curEvent ≠ NONE →
    w.curEvent.toNat < tl.entries.length ∧ w.fired.getD w.curEvent.toNat false = true
  firedDue : ∀ i, w.fired.getD i false = true →
    ∃ e, tl.entries[i]? = some e ∧ e.offsetMs.toNat ≤ now.toNat

/-- An entry that fires is due, becomes fired and becomes the event. -/
theorem firingInv_fireEntry {tl : Scenario} {now : U32} {w : Firing} (inv : FiringInv tl now w)
    (small : tl.entries.length ≤ 256) {i : Nat} {e : Entry} (he : tl.entries[i]? = some e) :
    FiringInv tl now (fireEntry now i e w) := by
  obtain ⟨width, event, firedDue⟩ := inv
  obtain ⟨hi, _⟩ := List.getElem?_eq_some_iff.mp he
  unfold fireEntry
  split_ifs with due
  · simp only [isDue, Bool.and_eq_true, decide_eq_true_eq] at due
    obtain ⟨_, due⟩ := due
    refine ⟨by simpa using width, fun _ => ?_, fun j hj => ?_⟩
    · have index : (eventIndex i).toNat = i := eventIndex_toNat (by omega)
      simp [index, hi, List.getD_eq_getElem?_getD, Nat.lt_of_lt_of_le hi width]
    · by_cases same : i = j
      · subst same
        exact ⟨e, he, due⟩
      · refine firedDue j ?_
        simpa [List.getD_eq_getElem?_getD, List.getElem?_set_ne same] using hj
  · exact ⟨width, event, firedDue⟩

theorem firingInv_fireFrom {tl : Scenario} {now : U32} (small : tl.entries.length ≤ 256)
    {i : Nat} {l : List Entry} (rest : tl.entries.drop i = l) {w : Firing} (inv : FiringInv tl now w) :
    FiringInv tl now (fireFrom now i l w) := by
  induction l generalizing i w with
  | nil => exact inv
  | cons e l ih =>
    have he : tl.entries[i]? = some e := by
      rw [← Nat.add_zero i, ← List.getElem?_drop, rest]
      rfl
    have tail : tl.entries.drop (i + 1) = l := by
      rw [← List.drop_drop, rest]
      rfl
    exact ih tail (firingInv_fireEntry inv small he)

/-- The clock of a run never goes back (R12, R222). -/
theorem le_satAdd32 (a b : U32) : a.toNat ≤ (satAdd32 a b).toNat := by
  have := a.isLt
  rw [satAdd32_toNat]
  omega

/-- SC_TICK in active keeps the invariants: what fired is due, and a run that ends is clear (R222). -/
theorem scnInv_tickActive {cfg : Config} (legal : legalConfig cfg = true) {c : Scn} (inv : ScnInv cfg c)
    (active : c.scnStatus = .active) (dt : U32) :
    ScnInv cfg (tickActive (timeline cfg c.scnId) c dt) := by
  have notIdle : c.scnStatus ≠ .idle := by simp [active]
  have known := inv.known notIdle
  obtain ⟨fits, small⟩ := timeline_length_of_legal legal known
  have start : FiringInv (timeline cfg c.scnId) (satAdd32 c.elapsedMs dt) ⟨c.ov, c.fired, c.curEvent⟩ := by
    refine ⟨by simpa [inv.width] using fits, fun h => (inv.event h).2, fun i h => ?_⟩
    obtain ⟨e, he, due⟩ := inv.firedDue i h
    exact ⟨e, he, due.trans (le_satAdd32 _ _)⟩
  obtain ⟨_, event, firedDue⟩ :
      FiringInv (timeline cfg c.scnId) (satAdd32 c.elapsedMs dt)
        (fireAll (timeline cfg c.scnId) (satAdd32 c.elapsedMs dt) c) :=
    firingInv_fireFrom small rfl start
  have width : (fireAll (timeline cfg c.scnId) (satAdd32 c.elapsedMs dt) c).fired.length
      = cfg.maxEntries := (fireFrom_fired_length _ _ _ _).trans inv.width
  unfold tickActive
  dsimp only
  split_ifs with finished
  · exact {
      width := width
      idle := fun h => by simp at h
      known := fun _ => known
      clear := fun _ => rfl
      settle := fun _ => rfl
      complete := fun _ => finished
      event := fun h => ⟨by simp, event h⟩
      firedDue := firedDue }
  · exact {
      width := width
      idle := fun h => absurd h notIdle
      known := fun _ => known
      clear := fun h => absurd active h
      settle := inv.settle
      complete := fun h => by simp [active] at h
      event := fun h => ⟨notIdle, event h⟩
      firedDue := firedDue }

/-- SC_TICK in complete keeps the invariants: the settle delay ends in the reset state (R224, D22). -/
theorem scnInv_tickComplete {cfg : Config} {c : Scn} (inv : ScnInv cfg c) (complete : c.scnStatus = .complete)
    (dt : U32) : ScnInv cfg (tickComplete cfg c dt) := by
  have clear : c.ov = clearOvs := inv.clear (by simp [complete])
  unfold tickComplete
  split_ifs
  · have back := scnInv_reset_of cfg
    rwa [Scn.reset, ← clear] at back
  · exact {
      width := inv.width
      idle := fun h => by simp [complete] at h
      known := inv.known
      clear := inv.clear
      settle := fun h => absurd complete h
      complete := inv.complete
      event := inv.event
      firedDue := inv.firedDue }

theorem scnInv_tick {cfg : Config} (legal : legalConfig cfg = true) {c : Scn} (inv : ScnInv cfg c) (dt : U32) :
    ScnInv cfg (tick cfg c dt) := by
  rcases tick_cases cfg c dt with ⟨_, h⟩ | ⟨active, h⟩ | ⟨complete, h⟩ <;> rw [h]
  · exact inv
  · exact scnInv_tickActive legal inv active dt
  · exact scnInv_tickComplete inv complete dt

theorem scnInv_tickRuns {s : State} (legal : legalConfig s.cfg = true) (inv : ScnInv s.cfg s.scn)
    (n : Nat) (dt : U32) : ScnInv s.cfg (tickRuns n dt s).scn := by
  induction n generalizing s with
  | zero => exact inv
  | succ n ih => exact ih (s := tickRun dt s) legal (scnInv_tick legal inv dt)

theorem ScnChange.keeps_inv {i : Instr} {s t : State} (change : ScnChange i s t)
    (legal : legalConfig s.cfg = true) (inv : ScnInv s.cfg s.scn) : ScnInv s.cfg t.scn := by
  cases change with
  | kept scn => rwa [scn]
  | reset _ scn =>
    rw [scn]
    exact scnInv_reset_of s.cfg
  | started id _ known scn =>
    rw [scn]
    exact scnInv_startedScn known
  | ticked n dt _ scn =>
    rw [scn]
    exact scnInv_tickRuns legal inv n dt

/-! ### All units -/

/-- Every operation keeps the invariants of R57. -/
theorem exec_keeps_inv {i : Instr} {s t : State} (h : exec i s = .next t) (inv : Inv s) : Inv t := by
  obtain ⟨legal, enc, dec, scn⟩ := inv_iff_units.mp inv
  obtain ⟨cfg, _⟩ := exec_restKept h
  rw [inv_iff_units, cfg]
  exact ⟨legal, (exec_encChange h).keeps_inv enc, (exec_decChange h).keeps_inv dec,
    (exec_scnChange h).keeps_inv legal scn⟩

/-- A step on a request that asks for no operation keeps the invariants: it keeps all they speak of. -/
theorem withoutOperation_keeps_inv (why : DecodeError) {s : State} (inv : Inv s) :
    Inv (withoutOperation why s) := by
  obtain ⟨⟨enc, dec, scn⟩, tx, rx, cfg, _⟩ := withoutOperation_frame why s
  rw [inv_iff_units, enc, dec, scn, tx, rx, cfg]
  exact inv_iff_units.mp inv

/-- Settles O51, by what a step performs: nothing, an operation, or a request that asks for none. -/
theorem stepKeepsTheInvariants : Obligations.StepKeepsTheInvariants := by
  intro s t inv h
  rcases step_cases s with ⟨_, hs⟩ | ⟨r, rest, _, ⟨i, _, hs⟩ | ⟨why, _, hs⟩⟩ <;> rw [hs] at h
  · cases h
    exact inv
  all_goals have taken : Inv (takeRequest rest s) := by simpa [inv_iff_units] using inv
  · exact exec_keeps_inv h taken
  · cases h
    exact withoutOperation_keeps_inv why taken

/-- The reset state of a legal build meets every invariant. -/
theorem inv_resetOf {cfg : Config} (legal : legalConfig cfg = true) : Inv (State.resetOf cfg) :=
  inv_iff_units.mpr ⟨legal, encUnitInv_of_idle rfl rfl rfl, decUnitInv_reset cfg, scnInv_reset_of cfg⟩

/-- Settles O50: the default parameters are legal. -/
theorem resetMeetsTheInvariants : Obligations.ResetMeetsTheInvariants :=
  ⟨inv_resetOf (by decide), fun _ => inv_resetOf⟩

end Sys2Proof.Machine
end

section
/-! SUPPORT. Settled statements on who writes what: a command writes its own unit, and each register file and
flag of 10_state.md R52 and R53 has its listed writers only. -/

namespace Sys2Proof.Machine

/-! ### Units (R20, R69) -/

/-- A read of an output port answers, and changes nothing else (R69). -/
theorem exec_read {i : Instr} (h : i.format = .readPort) (s : State) :
    ∃ r, exec i s = .next (s.answer r) := by
  cases i with
  | snapRead | scStatus | ovRead | ovApply => exact ⟨_, rfl⟩
  | encNop | encLoad | encEmit | encRsv | rxNop | rxByte | rxTime | rxRsv | scNop | scTrigger | scTick | scRsv
  | reset | encode | rxBytes | decode | scTicks | produce => simp [Instr.format] at h

/-- A command keeps the units behind the other ports (R20). -/
theorem command_keeps_others {i : Instr} {s t : State} (command : commandPort i.format)
    (h : exec i s = .next t) {q : Format} (other : q ≠ i.format) : portKept q s t := by
  obtain ⟨f, execf, acts⟩ := command_actsOn command
  rw [execf] at h
  cases h
  exact acts.others q s other

/-- Settles O48: a command acts on the unit of its own port, a read only answers. -/
theorem unitsWriteOnlyTheirOwn : Obligations.UnitsWriteOnlyTheirOwn := by
  intro i s t h
  refine ⟨exec_restKept h, fun enc => ?_, fun rx => ?_, fun sc => ?_, fun read => ?_⟩
  · have others {q : Format} (hq : q ≠ .encCmd) : portKept q s t :=
      command_keeps_others (.inl enc) h (enc ▸ hq)
    exact ⟨others (q := .rxCmd) (by decide), others (q := .scCmd) (by decide)⟩
  · have others {q : Format} (hq : q ≠ .rxCmd) : portKept q s t :=
      command_keeps_others (.inr (.inl rx)) h (rx ▸ hq)
    exact ⟨others (q := .encCmd) (by decide), others (q := .scCmd) (by decide)⟩
  · have others {q : Format} (hq : q ≠ .scCmd) : portKept q s t :=
      command_keeps_others (.inr (.inr sc)) h (sc ▸ hq)
    exact ⟨others (q := .encCmd) (by decide), others (q := .rxCmd) (by decide)⟩
  · obtain ⟨r, answered⟩ := exec_read read s
    rw [answered] at h
    cases h
    exact ⟨⟨rfl, rfl, rfl⟩, ⟨rfl, rfl, rfl⟩, rfl, rfl⟩

/-! ### The writers of ENC (R52, R53) -/

/-- ENC_EMIT keeps the set and the range flag, and ends the frame at offset 57 only (R135, R136). -/
theorem emittedEnc_keeps (e : Enc) :
    (emittedEnc e).encSet = e.encSet ∧ (emittedEnc e).encRangeWarn = e.encRangeWarn
      ∧ (e.encIdx.val ≠ 57 → (emittedEnc e).encBusy = e.encBusy) := by
  have := e.encIdx.isLt
  by_cases below : e.encIdx.val < 57
  · simp [emittedEnc_of_lt below]
  · have last : e.encIdx.val = 57 := by omega
    simp [emittedEnc_of_not_lt below, last]

theorem EncChange.set_writers {i : Instr} {s t : State} (change : EncChange i s t)
    (h : t.enc.encSet ≠ s.enc.encSet ∨ t.enc.encRangeWarn ≠ s.enc.encRangeWarn) :
    i = .reset ∨ (s.enc.encBusy = false
      ∧ ((∃ set, i = .encLoad set) ∨ (∃ set, i = .encode set) ∨ ∃ dt nom, i = .produce dt nom)) := by
  cases change with
  | kept enc => simp [enc] at h
  | reset op => exact .inl op
  | loaded set op idle => exact .inr ⟨idle, .inl ⟨set, op⟩⟩
  | emitted _ _ enc =>
    obtain ⟨set, warn, _⟩ := emittedEnc_keeps s.enc
    simp [enc, set, warn] at h
  | sent _ op idle => exact .inr ⟨idle, .inr op⟩

theorem EncChange.busy_set {i : Instr} {s t : State} (change : EncChange i s t)
    (before : s.enc.encBusy = false) (after : t.enc.encBusy = true) : ∃ set, i = .encLoad set := by
  cases change with
  | kept enc => simp [enc, before] at after
  | reset _ enc => simp [enc, Enc.reset] at after
  | loaded set op => exact ⟨set, op⟩
  | emitted _ busy => simp [before] at busy
  | sent _ _ _ enc => simp [enc, sentEnc] at after

theorem EncChange.busy_cleared {i : Instr} {s t : State} (change : EncChange i s t)
    (before : s.enc.encBusy = true) (after : t.enc.encBusy = false) :
    i = .reset ∨ (i = .encEmit ∧ s.enc.encIdx.val = 57) := by
  cases change with
  | kept enc => simp [enc, before] at after
  | reset op => exact .inl op
  | loaded _ _ idle => simp [before] at idle
  | emitted op _ enc =>
    refine .inr ⟨op, ?_⟩
    by_contra inside
    obtain ⟨_, _, keeps⟩ := emittedEnc_keeps s.enc
    simp [enc, keeps inside, before] at after
  | sent _ _ idle => simp [before] at idle

/-! ### The writers of DEC (R52, R53) -/

theorem publishedKept_refl (d : Dec) : publishedKept d d := ⟨rfl, rfl, rfl, rfl, rfl⟩

theorem publishedKept_trans {d e f : Dec} (h : publishedKept d e) (h' : publishedKept e f) :
    publishedKept d f := by
  obtain ⟨snap, time, valid, link, silence⟩ := h
  obtain ⟨snap', time', valid', link', silence'⟩ := h'
  exact ⟨snap'.trans snap, time'.trans time, valid'.trans valid, link'.trans link, silence'.trans silence⟩

/-- A byte publishes when it is accepted, which connects the link, and else publishes nothing
(R172 to R174). -/
theorem receive_published (d : Dec) (b : Byte) :
    ((receive d b).2 = .accepted ∧ (receive d b).1.linkStatus = .connected)
    ∨ ((receive d b).2 ≠ .accepted ∧ publishedKept d (receive d b).1) := by
  rcases receive_cases d b with ⟨_, h⟩ | ⟨_, _, _, h⟩ | ⟨_, _, h⟩ | ⟨_, _, _, h⟩ <;> rw [h]
  · exact .inr ⟨by simp, pendDec_publishedKept d b⟩
  · exact .inl ⟨rfl, rfl⟩
  · exact .inr ⟨by simp, failDec_publishedKept d b⟩
  · exact .inr ⟨by simp, failDec_publishedKept d b⟩

/-- Bytes in a row publish when one of them is accepted, and the link stays connected after it. -/
theorem receiveBytes_published (bs : List Byte) (s : State) :
    (.accepted ∈ (receiveBytes bs s).1 ∧ (receiveBytes bs s).2.dec.linkStatus = .connected)
    ∨ (.accepted ∉ (receiveBytes bs s).1 ∧ publishedKept s.dec (receiveBytes bs s).2.dec) := by
  induction bs generalizing s with
  | nil => exact .inr ⟨by simp, publishedKept_refl s.dec⟩
  | cons b bs ih =>
    rw [receiveBytes_cons]
    rcases ih (receiveByte b s) with ⟨later, link⟩ | ⟨noLater, kept⟩
    · exact .inl ⟨List.mem_cons_of_mem _ later, link⟩
    · rcases receive_published s.dec b with ⟨now, link⟩ | ⟨notNow, kept'⟩
      · obtain ⟨_, _, _, sameLink, _⟩ := kept
        exact .inl ⟨by simp [now], sameLink.trans link⟩
      · exact .inr ⟨by simp [noLater, Ne.symm notNow], publishedKept_trans kept' kept⟩

/-- The operation `i`, which answered the state `t`, presented a byte that was accepted. -/
def acceptedByte (i : Instr) (t : State) : Prop :=
  (∃ b, i = .rxByte b ∧ t.rxResult = .accepted)
    ∨ ∃ bs l, i = .rxBytes bs ∧ t.result = .rxs l ∧ RxResult.accepted ∈ l

/-- What DEC publishes stays, or RESET, an accepted byte or RX_TIME wrote it. -/
theorem DecChange.published {i : Instr} {s t : State} (change : DecChange i s t) :
    publishedKept s.dec t.dec ∨ i = .reset ∨ (t.dec.linkStatus = .connected ∧ acceptedByte i t)
    ∨ ∃ dt, i = .rxTime dt ∧ t.dec = passTime s.cfg.linkTimeoutMs s.dec dt := by
  cases change with
  | kept dec => exact .inl (dec ▸ publishedKept_refl _)
  | reset op => exact .inr (.inl op)
  | byte b op next =>
    subst next
    rcases receive_published s.dec b with ⟨accepted, link⟩ | ⟨_, kept⟩
    · exact .inr (.inr (.inl ⟨link, .inl ⟨b, op, accepted⟩⟩))
    · exact .inl kept
  | bytes bs op next =>
    subst next
    rcases receiveBytes_published bs s with ⟨accepted, link⟩ | ⟨_, kept⟩
    · exact .inr (.inr (.inl ⟨link, .inr ⟨bs, _, op, rfl, accepted⟩⟩))
    · exact .inl kept
  | time dt op dec => exact .inr (.inr (.inr ⟨dt, op, dec⟩))

theorem DecChange.window_writers {i : Instr} {s t : State} (change : DecChange i s t)
    (h : t.dec.rxWin ≠ s.dec.rxWin) :
    i = .reset ∨ (∃ b, i = .rxByte b) ∨ ∃ bs, i = .rxBytes bs := by
  cases change with
  | kept dec => simp [dec] at h
  | reset op => exact .inl op
  | byte b op => exact .inr (.inl ⟨b, op⟩)
  | bytes bs op => exact .inr (.inr ⟨bs, op⟩)
  | time _ _ dec => simp [dec, passTime] at h

theorem DecChange.snapshot_writers {i : Instr} {s t : State} (change : DecChange i s t)
    (h : t.dec.snap ≠ s.dec.snap ∨ t.dec.snapTimeMs ≠ s.dec.snapTimeMs
      ∨ t.dec.snapValid ≠ s.dec.snapValid) : i = .reset ∨ acceptedByte i t := by
  rcases change.published with ⟨snap, time, valid, _, _⟩ | op | ⟨_, accepted⟩ | ⟨_, _, dec⟩
  · simp [snap, time, valid] at h
  · exact .inl op
  · exact .inr accepted
  · simp [dec, passTime] at h

theorem DecChange.link_writers {i : Instr} {s t : State} (change : DecChange i s t)
    (h : t.dec.linkStatus ≠ s.dec.linkStatus) :
    i = .reset ∨ (∃ dt, i = .rxTime dt ∧ t.dec.linkStatus = .disconnected)
      ∨ (t.dec.linkStatus = .connected ∧ acceptedByte i t) := by
  rcases change.published with ⟨_, _, _, link, _⟩ | op | accepted | ⟨dt, op, dec⟩
  · exact absurd link h
  · exact .inl op
  · exact .inr (.inr accepted)
  · refine .inr (.inl ⟨dt, op, ?_⟩)
    cases out : timedOut s.cfg.linkTimeoutMs (satAdd32 s.dec.silenceMs dt) with
    | true => simp [dec, passTime, out]
    | false => simp [dec, passTime, out] at h

/-! ### The writers of SCN (R52, R53) -/

theorem ScnChange.override_writers {i : Instr} {s t : State} (change : ScnChange i s t)
    (h : t.scn.ov ≠ s.scn.ov ∨ t.scn.fired ≠ s.scn.fired) :
    i = .reset ∨ (∃ id, i = .scTrigger id) ∨ (∃ dt, i = .scTick dt)
      ∨ (∃ n dt, i = .scTicks n dt) ∨ ∃ dt nom, i = .produce dt nom := by
  cases change with
  | kept scn => simp [scn] at h
  | reset op => exact .inl op
  | started id op => exact .inr (.inl ⟨id, op⟩)
  | ticked n dt op =>
    rcases op with op | op | ⟨nom, op⟩
    · exact .inr (.inr (.inl ⟨dt, op⟩))
    · exact .inr (.inr (.inr (.inl ⟨n, dt, op⟩)))
    · exact .inr (.inr (.inr (.inr ⟨dt, nom, op⟩)))

/-- Settles O49, unit by unit, from what an operation can do to each. -/
theorem registersHaveOnlyTheirWriters : Obligations.RegistersHaveOnlyTheirWriters := by
  intro i s t h
  have enc := exec_encChange h
  have dec := exec_decChange h
  exact ⟨enc.set_writers, enc.busy_set, enc.busy_cleared, dec.window_writers, dec.snapshot_writers,
    dec.link_writers, (exec_scnChange h).override_writers⟩

end Sys2Proof.Machine
end

section
/-! SUPPORT. Settled statements on the checks and the derived fields of a set: the range flag of an accepted load,
the sum of the currents and the largest voltage. -/

namespace Sys2Proof.Machine

/-! ### The range flag (R31, R96) -/

/-- No reserved bit is set exactly when bits 4 to 7 are 0 (R93). -/
theorem reserved_eq_zero_iff (st : Byte) :
    st &&& ST_RSVD = 0 ↔ st.getLsbD 4 = false ∧ st.getLsbD 5 = false ∧ st.getLsbD 6 = false
      ∧ st.getLsbD 7 = false := by
  constructor
  · intro h
    have bit (k : Nat) (reserved : ST_RSVD.getLsbD k = true) : st.getLsbD k = false := by
      have masked : (st &&& ST_RSVD).getLsbD k = false := by
        rw [h]
        exact BitVec.getLsbD_zero
      rwa [BitVec.getLsbD_and, reserved, Bool.and_true] at masked
    exact ⟨bit 4 rfl, bit 5 rfl, bit 6 rfl, bit 7 rfl⟩
  · rintro ⟨h4, h5, h6, h7⟩
    apply BitVec.eq_of_getLsbD_eq
    intro k hk
    have clear : st.getLsbD k = false ∨ ST_RSVD.getLsbD k = false := by
      interval_cases k
      exacts [.inr rfl, .inr rfl, .inr rfl, .inr rfl, .inl h4, .inl h5, .inl h6, .inl h7]
    rw [BitVec.getLsbD_and, Bool.and_eq_false_iff.mpr clear]
    exact BitVec.getLsbD_zero.symm

/-- What is wrong with a record that is not valid (R96). -/
theorem validRec_eq_false_iff (r : ChRec) :
    validRec r = false ↔ 16000 < r.voltageMv.toNat ∨ 50000 < r.currentMa.toNat
      ∨ r.temperatureDecic.toInt < -400 ∨ 1250 < r.temperatureDecic.toInt
      ∨ r.status.getLsbD 4 = true ∨ r.status.getLsbD 5 = true
      ∨ r.status.getLsbD 6 = true ∨ r.status.getLsbD 7 = true := by
  have status : (r.status &&& ST_RSVD == 0) = false ↔ r.status.getLsbD 4 = true
      ∨ r.status.getLsbD 5 = true ∨ r.status.getLsbD 6 = true ∨ r.status.getLsbD 7 = true := by
    rw [beq_eq_false_iff_ne, ne_eq, reserved_eq_zero_iff]
    simp only [not_and_or, Bool.not_eq_false]
  simp only [validRec, Bool.and_eq_false_iff, decide_eq_false_iff_not, status, not_le, or_assoc]
  rfl

/-- The range flag is 1 exactly when some record is not valid (R31). -/
theorem rangeWarn_iff (set : ChannelSet) :
    rangeWarn set = true ↔ ∃ c : Fin 8, validRec set[c] = false := by
  have all : validSet set = true ↔ ∀ c : Fin 8, validRec set[c] = true := by
    simp [validSet, toList_eight, Fin.forall_fin_succ]
  rw [rangeWarn, Bool.not_eq_true', ← Bool.not_eq_true, all]
  simp

/-- Settles O3: an accepted load writes the flag of its set. -/
theorem rangeWarnExactlyOnDefect : Obligations.RangeWarnExactlyOnDefect := by
  intro set s idle
  have flag : (loadSet set s).enc.encRangeWarn = rangeWarn set := by simp [loadSet, idle, loadedEnc]
  refine ⟨loadSet set s, rfl, ?_⟩
  rw [flag, rangeWarn_iff]
  exact exists_congr fun c => validRec_eq_false_iff set[c]

/-! ### The derived fields (R24, R25) -/

theorem totalCurrentMa_eq_sum (u : ChannelSet) : totalCurrentMa u = ∑ c : Fin 8, u[c].currentMa.toNat := by
  simp [totalCurrentMa, toList_eight, Fin.sum_univ_eight]
  omega

/-- Eight 16-bit currents add up to at most eight times the largest (R24). -/
theorem totalCurrentMa_le (u : ChannelSet) : totalCurrentMa u ≤ 8 * 65535 := by
  have each (c : Fin 8) : u[c].currentMa.toNat ≤ 65535 := Nat.le_of_lt_succ u[c].currentMa.isLt
  calc totalCurrentMa u = ∑ c : Fin 8, u[c].currentMa.toNat := totalCurrentMa_eq_sum u
    _ ≤ ∑ _c : Fin 8, 65535 := Finset.sum_le_sum fun c _ => each c
    _ = 8 * 65535 := by simp

/-- The system voltage is one of the eight voltages and none is above it (R25). -/
theorem systemVoltageMv_isMax (u : ChannelSet) :
    (∀ c : Fin 8, u[c].voltageMv.toNat ≤ systemVoltageMv u)
      ∧ ∃ c : Fin 8, u[c].voltageMv.toNat = systemVoltageMv u := by
  obtain ⟨m, hm⟩ : ∃ m, (u.toList.map fun r => r.voltageMv.toNat).max? = some m :=
    Option.isSome_iff_exists.mp (by simp [toList_eight])
  have value : systemVoltageMv u = m := by
    rw [systemVoltageMv, List.foldl_max, hm]
    exact Nat.zero_max m
  obtain ⟨mem, above⟩ := List.max?_eq_some_iff.mp hm
  rw [value]
  refine ⟨fun c => above _ (List.mem_map_of_mem (by simp)), ?_⟩
  obtain ⟨r, hr, rfl⟩ := List.mem_map.mp mem
  obtain ⟨c, hc, rfl⟩ := Vector.mem_iff_getElem.mp (Vector.mem_toList_iff.mp hr)
  exact ⟨⟨c, hc⟩, rfl⟩

/-- Settles O21: 19 bits hold the sum and 16 bits hold a voltage. -/
theorem derivedFieldsAreSumAndLargest : Obligations.DerivedFieldsAreSumAndLargest := by
  refine ⟨fun u => ⟨totalCurrentMa_eq_sum u, totalCurrentMa_le u, systemVoltageMv_isMax u⟩, fun s => ⟨?_, ?_⟩⟩
  · have := totalCurrentMa_le s.dec.snap
    exact Nat.mod_eq_of_lt (by omega)
  · obtain ⟨_, c, attained⟩ := systemVoltageMv_isMax s.dec.snap
    have := s.dec.snap[c].voltageMv.isLt
    exact Nat.mod_eq_of_lt (by omega)

end Sys2Proof.Machine
end

section
/-! SUPPORT. Settled statement on stale window bytes (10_state.md R35): an operation of another unit reads nothing
of DEC, and DEC itself reads its window below `rx_cnt` only. -/

namespace Sys2Proof.Machine

/-! ### Operations that read nothing of DEC -/

/-- `f` neither reads nor writes the registers and the result port of DEC. -/
def IgnoresDec (f : State → State) : Prop :=
  ∀ (s : State) (d : Dec) (r : RxResult), f (s.setDec d r) = (f s).setDec d r

theorem loadSet_ignoresDec (set : ChannelSet) : IgnoresDec (loadSet set) := by
  intro s d r
  cases busy : s.enc.encBusy <;> simp only [loadSet, State.setDec_enc, busy] <;> rfl

theorem emitByte_ignoresDec : IgnoresDec emitByte := by
  intro s d r
  cases busy : s.enc.encBusy <;> simp only [emitByte, State.setDec_enc, busy] <;> rfl

/-- ENC_EMITs in a row emit the same bytes whatever DEC holds. -/
theorem emitBytes_setDec (n : Nat) (s : State) (d : Dec) (r : RxResult) :
    emitBytes n (s.setDec d r) = ((emitBytes n s).1, (emitBytes n s).2.setDec d r) := by
  induction n generalizing s with
  | zero => rfl
  | succ n ih => simp only [emitBytes_succ, emitByte_ignoresDec s d r, ih, State.setDec_encOut]

theorem encodeSet_ignoresDec (set : ChannelSet) : IgnoresDec (encodeSet set) := by
  intro s d r
  cases ack : (loadSet set s).encOut.encAck <;>
    simp only [encodeSet, loadSet_ignoresDec set s d r, emitBytes_setDec, State.setDec_encOut, ack] <;> rfl

theorem tickRuns_ignoresDec (n : Nat) (dt : U32) : IgnoresDec (tickRuns n dt) := by
  intro s d r
  induction n generalizing s with
  | zero => rfl
  | succ n ih => exact ih (tickRun dt s)

/-! ### States that differ in stale bytes -/

/-- DEC has the same registers but for window bytes at or above `rx_cnt` (R35). -/
def sameWindow (d e : Dec) : Prop :=
  e.rxWin.toList.take d.rxCnt.val = d.rxWin.toList.take d.rxCnt.val ∧ e = { d with rxWin := e.rxWin }

theorem sameButStale_iff {s u : State} :
    sameButStale s u ↔ ∃ d, sameWindow s.dec d ∧ u = s.setDec d s.rxResult := by
  constructor
  · rintro ⟨win, same, rfl⟩
    exact ⟨{ s.dec with rxWin := win }, ⟨same, rfl⟩, rfl⟩
  · rintro ⟨d, ⟨same, rest⟩, rfl⟩
    refine ⟨d.rxWin, same, ?_⟩
    rw [← rest]
    rfl

/-- What ignores DEC keeps it. -/
theorem IgnoresDec.keepsDec {f : State → State} (hf : IgnoresDec f) (s : State) :
    (f s).dec = s.dec ∧ (f s).rxResult = s.rxResult := by
  have same : f s = (f s).setDec s.dec s.rxResult := hf s s.dec s.rxResult
  rw [same]
  exact ⟨rfl, rfl⟩

/-- States that differ in stale bytes answer alike, and still differ in stale bytes only. -/
def AnswersAlike (t v : State) : Prop := t.result = v.result ∧ sameButStale t v

theorem IgnoresDec.answersAlike {f : State → State} (hf : IgnoresDec f) {s u : State}
    (h : sameButStale s u) : AnswersAlike (f s) (f u) := by
  obtain ⟨d, same, rfl⟩ := sameButStale_iff.mp h
  obtain ⟨dec, port⟩ := hf.keepsDec s
  rw [hf]
  exact ⟨rfl, sameButStale_iff.mpr ⟨d, by rwa [dec], by rw [port]⟩⟩

/-! ### DEC -/

theorem windowWith_of_sameWindow {d e : Dec} (h : sameWindow d e) (b : Byte) :
    windowWith e b = windowWith d b := by
  obtain ⟨same, rest⟩ := h
  have cnt : e.rxCnt = d.rxCnt := by rw [rest]
  rw [windowWith, windowWith, cnt, same]

/-- A byte that is kept leaves the same meaningful bytes, the window with it (R172). -/
theorem pendDec_of_sameWindow {d e : Dec} (h : sameWindow d e) (b : Byte) (part : d.rxCnt.val < 57) :
    sameWindow (pendDec d b) (pendDec e b) := by
  have window := windowWith_of_sameWindow h b
  obtain ⟨_, rest⟩ := h
  have cnt : e.rxCnt = d.rxCnt := by rw [rest]
  have cnt' : (pendDec e b).rxCnt = (pendDec d b).rxCnt := by rw [pendDec, pendDec, cnt]
  constructor
  · rw [pendDec_window d b part, ← cnt', pendDec_window e b (by omega), window]
  · rw [rest]
    rfl

/-- A failed attempt leaves the same meaningful bytes, the window without its first (R174). -/
theorem failDec_of_sameWindow {d e : Dec} (h : sameWindow d e) (b : Byte) (full : d.rxCnt.val = 57) :
    sameWindow (failDec d b) (failDec e b) := by
  have window := windowWith_of_sameWindow h b
  obtain ⟨_, rest⟩ := h
  have cnt : e.rxCnt = d.rxCnt := by rw [rest]
  have cnt' : (failDec e b).rxCnt = (failDec d b).rxCnt := rfl
  constructor
  · rw [failDec_window d b full, ← cnt', failDec_window e b (by omega), window]
  · rw [failDec_eq d b full, failDec_eq e b (by omega)]
    exact congrArg (fun x : Dec => { x with rxWin := (failDec e b).rxWin }) rest

/-- After an accepted frame no byte of the window is meaningful (R173). -/
theorem acceptDec_of_sameWindow {d e : Dec} (h : sameWindow d e) (b : Byte) (set : ChannelSet) :
    sameWindow (acceptDec d b set) (acceptDec e b set) := by
  obtain ⟨_, rest⟩ := h
  refine ⟨rfl, ?_⟩
  rw [rest]
  rfl

/-- RX_BYTE reads the window below `rx_cnt`: the verdict is the same, and so is the window after it
(R170 to R174). -/
theorem receive_of_sameWindow {d e : Dec} (h : sameWindow d e) (b : Byte) :
    (receive d b).2 = (receive e b).2 ∧ sameWindow (receive d b).1 (receive e b).1 := by
  have window := windowWith_of_sameWindow h b
  have len := windowWith_length d b
  have lt := d.rxCnt.isLt
  rcases decodeFrame_cases (windowWith d b) with ⟨n, v⟩ | ⟨n, _, v⟩ | ⟨n, _, _, v⟩ | ⟨n, _, _, v⟩ <;>
    simp only [receive, window, v, true_and]
  · exact pendDec_of_sameWindow h b (by omega)
  · exact failDec_of_sameWindow h b (by omega)
  · exact failDec_of_sameWindow h b (by omega)
  · exact acceptDec_of_sameWindow h b _

/-- RX_BYTE with the same verdict, on the whole state. -/
theorem receiveByte_of_sameButStale {s u : State} (h : sameButStale s u) (b : Byte) :
    (receive s.dec b).2 = (receive u.dec b).2 ∧ sameButStale (receiveByte b s) (receiveByte b u) := by
  obtain ⟨d, same, rfl⟩ := sameButStale_iff.mp h
  obtain ⟨verdict, after⟩ := receive_of_sameWindow same b
  refine ⟨verdict, sameButStale_iff.mpr ⟨(receive d b).1, after, ?_⟩⟩
  simp only [receiveByte, State.setDec_dec, verdict]
  rfl

/-- RX_BYTES with the same verdicts, one for each byte. -/
theorem receiveBytes_of_sameButStale (bs : List Byte) {s u : State} (h : sameButStale s u) :
    (receiveBytes bs s).1 = (receiveBytes bs u).1
      ∧ sameButStale (receiveBytes bs s).2 (receiveBytes bs u).2 := by
  induction bs generalizing s u with
  | nil => exact ⟨rfl, h⟩
  | cons b bs ih =>
    obtain ⟨verdict, after⟩ := receiveByte_of_sameButStale h b
    obtain ⟨verdicts, afterAll⟩ := ih after
    rw [receiveBytes_cons, receiveBytes_cons]
    exact ⟨by rw [verdict, verdicts], afterAll⟩

/-- The same answer on both sides changes nothing of the difference. -/
theorem answersAlike_answer {s u : State} (h : sameButStale s u) (r : Result) :
    AnswersAlike (s.answer r) (u.answer r) := by
  obtain ⟨win, same, rfl⟩ := h
  exact ⟨rfl, win, same, rfl⟩

/-- Settles O29: an operation of another unit ignores DEC, and DEC's own read below `rx_cnt`. -/
theorem staleWindowBytesDecideNothing : Obligations.StaleWindowBytesDecideNothing := by
  intro i s u h
  have alike {f : State → State} (run : ∀ x, exec i x = .next (f x)) (hf : AnswersAlike (f s) (f u)) :
      ∃ t v, exec i s = .next t ∧ exec i u = .next v ∧ t.result = v.result ∧ sameButStale t v :=
    ⟨f s, f u, run s, run u, hf⟩
  have elsewhere {f : State → State} (run : ∀ x, exec i x = .next (f x)) (hf : IgnoresDec f) :=
    alike run (hf.answersAlike h)
  cases i with
  | encNop | encRsv | scNop | scTick | scRsv | scStatus | ovRead | ovApply | decode | scTrigger =>
    exact elsewhere (fun _ => rfl) fun _ _ _ => rfl
  | encLoad set => exact elsewhere (fun _ => rfl) (loadSet_ignoresDec set)
  | encEmit => exact elsewhere (fun _ => rfl) emitByte_ignoresDec
  | encode set => exact elsewhere (fun _ => rfl) (encodeSet_ignoresDec set)
  | scTicks n dt =>
    exact elsewhere (fun _ => rfl) fun x d r => congrArg (·.answer .silent) (tickRuns_ignoresDec n dt x d r)
  | produce dt nom =>
    exact elsewhere (fun _ => rfl) fun x d r => encodeSet_ignoresDec _ (tickRun dt x) d r
  | rxByte b =>
    obtain ⟨verdict, after⟩ := receiveByte_of_sameButStale h b
    exact alike (fun _ => rfl) ⟨congrArg Result.rx verdict, after⟩
  | rxBytes bs =>
    obtain ⟨verdicts, after⟩ := receiveBytes_of_sameButStale bs h
    refine alike (fun _ => rfl) ?_
    rw [← verdicts]
    exact answersAlike_answer after _
  | rxNop | rxRsv | rxTime | snapRead =>
    obtain ⟨win, same, rfl⟩ := h
    exact alike (fun _ => rfl) ⟨rfl, win, same, rfl⟩
  | reset =>
    obtain ⟨win, same, rfl⟩ := h
    exact alike (fun _ => rfl) ⟨rfl, Dec.reset.rxWin, rfl, rfl⟩

end Sys2Proof.Machine
end

section
/-! SUPPORT. Settled statement on perfect transport (41_frame_decoder.md R80): a window that fills up with a
frame publishes its set, and nothing but RESET and a byte moves the window. -/

namespace Sys2Proof.Machine

/-! ### Decoding a frame (R168) -/

/-- Byte `k` of channel `c`'s record in a frame (R70). -/
theorem byteAt_frame (x : ChannelSet) (c : Fin 8) {k : Nat} (hk : k < 7) :
    byteAt (frame x) (1 + 7 * c.val + k) = byteAt (wireBytes x[c]) k := by
  simp only [byteAt, List.getD_eq_getElem?_getD, frame_record x c hk]

/-- Parsing a frame gives the set with its reserved status bits cleared. -/
theorem parse_frame (x : ChannelSet) : parse (frame x) = canon x := by
  apply ext_eight
  intro c
  have first : byteAt (frame x) (1 + 7 * c.val) = byteAt (wireBytes x[c]) 0 :=
    byteAt_frame x c (k := 0) (by decide)
  rw [parse_get, canon_get]
  simp only [parseRec, first, byteAt_frame, Nat.reduceLT]
  simp [byteAt, wireBytes, canonRec]

/-- A frame passes the header test and the checksum test. -/
theorem decodeFrame_frame (x : ChannelSet) : decodeFrame (frame x) = .ok (canon x) := by
  have header : hdrOk (frame x) = true := (hdrOk_iff (frame_length x)).mpr (frame_header x)
  have checksum : ckOk (frame x) = true := (ckOk_iff (frame_length x)).mpr (by simp [frame])
  simp [decodeFrame, header, checksum, parse_frame]

/-! ### The bytes that stand in the window -/

/-- The meaningful bytes of the window, those below `rx_cnt` (R35, R62). -/
def heldBytes (d : Dec) : List Byte := d.rxWin.toList.take d.rxCnt.val

@[simp] theorem heldBytes_length (d : Dec) : (heldBytes d).length = d.rxCnt.val := by
  simp [heldBytes]

theorem heldBytes_of_empty {d : Dec} (empty : d.rxCnt = 0) : heldBytes d = [] :=
  List.eq_nil_of_length_eq_zero (by simp [empty])

/-- A byte that does not fill the window is kept (R172). -/
theorem receive_of_part {d : Dec} (b : Byte) (part : d.rxCnt.val < 57) :
    receive d b = (pendDec d b, .pending) := by
  rcases receive_cases d b with ⟨_, h⟩ | ⟨full, _⟩ | ⟨full, _⟩ | ⟨full, _⟩
  · exact h
  all_goals omega

/-- A byte that does not fill the window stands after the bytes before it (R172). -/
theorem heldBytes_pendDec {d : Dec} (b : Byte) (part : d.rxCnt.val < 57) :
    heldBytes (pendDec d b) = heldBytes d ++ [b] :=
  pendDec_window d b part

/-- A byte that does not fill the window is counted (R172). -/
theorem pendDec_rxCnt {d : Dec} (b : Byte) (part : d.rxCnt.val < 57) :
    (pendDec d b).rxCnt.val = d.rxCnt.val + 1 :=
  Nat.mod_eq_of_lt (by omega)

/-- A byte that completes a frame publishes its set (R173). -/
theorem receive_of_frame {d : Dec} {b : Byte} {x : ChannelSet} (whole : heldBytes d ++ [b] = frame x) :
    receive d b = (acceptDec d b (canon x), .accepted) := by
  have window : windowWith d b = frame x := whole
  simp [receive, window, decodeFrame_frame]

/-! ### A frame without interruption -/

/-- The results of one frame: 57 Pending and one Accepted (R80). -/
def frameResults : List RxResult := List.replicate 57 .pending ++ [.accepted]

/-- Before its last, the next result of a frame is Pending. -/
theorem frameResults_drop_of_part (l : List RxResult) {n : Nat} (part : n < 57) :
    (frameResults ++ l).drop n = .pending :: (frameResults ++ l).drop (n + 1) := by
  have lt : n < (frameResults ++ l).length := by
    simp [frameResults]
    omega
  have next : (frameResults ++ l)[n] = .pending := by
    simp only [frameResults, List.append_assoc]
    rw [List.getElem_append_left (by simpa using part), List.getElem_replicate]
  rw [List.drop_eq_getElem_cons lt, next]

/-- Bytes in a row that do not fill the window are all kept, and no time passes. -/
theorem receiveBytes_of_part (bs : List Byte) {s : State} (part : s.dec.rxCnt.val + bs.length ≤ 57) :
    (receiveBytes bs s).1 = List.replicate bs.length .pending
      ∧ heldBytes (receiveBytes bs s).2.dec = heldBytes s.dec ++ bs
      ∧ (receiveBytes bs s).2.dec.rxClockMs = s.dec.rxClockMs := by
  induction bs generalizing s with
  | nil => simp
  | cons b bs ih =>
    rw [List.length_cons] at part
    have lt : s.dec.rxCnt.val < 57 := by omega
    have kept : (receiveByte b s).dec = pendDec s.dec b := by rw [receiveByte_dec, receive_of_part b lt]
    have held : heldBytes (receiveByte b s).dec = heldBytes s.dec ++ [b] := by
      rw [kept, heldBytes_pendDec b lt]
    have count : (receiveByte b s).dec.rxCnt.val = s.dec.rxCnt.val + 1 := by rw [kept, pendDec_rxCnt b lt]
    obtain ⟨results, window, clock⟩ := ih (s := receiveByte b s) (by omega)
    rw [receiveBytes_cons, receive_of_part b lt]
    refine ⟨?_, ?_, ?_⟩
    · simp [results, List.replicate_succ]
    · rw [window, held, List.append_assoc]
      rfl
    · rw [clock, kept]
      rfl

/-- The bytes of a frame from an empty window are accepted by the last of them, which publishes the set
(R173). -/
theorem receiveBytes_frame_of_empty (x : ChannelSet) {s : State} (empty : s.dec.rxCnt = 0) :
    (receiveBytes (frame x) s).1 = frameResults
      ∧ ∃ d b, (receiveBytes (frame x) s).2.dec = acceptDec d b (canon x)
        ∧ d.rxClockMs = s.dec.rxClockMs := by
  obtain ⟨results, window, clock⟩ := receiveBytes_of_part (frameBody x) (s := s) (by simp [empty])
  rw [heldBytes_of_empty empty, List.nil_append] at window
  have last := receive_of_frame (d := (receiveBytes (frameBody x) s).2.dec) (b := xor8 (frameBody x))
    (x := x) (by rw [window, frame])
  rw [frame, receiveBytes_append, receiveBytes_cons, receiveBytes_nil, last, results, frameBody_length]
  exact ⟨rfl, _, _, congrArg Prod.fst last, clock⟩

/-- The bytes of frames in a row from an empty window are all accepted, and no time passes. -/
theorem receiveBytes_frames_of_empty (sets : List ChannelSet) {s : State} (empty : s.dec.rxCnt = 0) :
    (receiveBytes (sets.flatMap frame) s).1 = sets.flatMap (fun _ => frameResults)
      ∧ (receiveBytes (sets.flatMap frame) s).2.dec.rxCnt = 0
      ∧ (receiveBytes (sets.flatMap frame) s).2.dec.rxClockMs = s.dec.rxClockMs := by
  induction sets generalizing s with
  | nil => exact ⟨rfl, empty, rfl⟩
  | cons x xs ih =>
    obtain ⟨first, d, b, accepted, clock⟩ := receiveBytes_frame_of_empty x empty
    obtain ⟨rest, emptied, still⟩ := ih (s := (receiveBytes (frame x) s).2) (by rw [accepted]; rfl)
    simp only [List.flatMap_cons, receiveBytes_append]
    refine ⟨by rw [first, rest], emptied, ?_⟩
    rw [still, accepted]
    exact clock

/-! ### Frames with other operations between their bytes -/

/-- Every operation answers a next state (R273). -/
theorem exec_answers (i : Instr) (s : State) : ∃ t, exec i s = .next t := by
  cases i <;> exact ⟨_, rfl⟩

/-- A command or a read presents a byte, or presents none and keeps the window (R20, R53). -/
theorem command_or_read_cases {i : Instr} (s : State) (plain : i ≠ .reset ∧ i.format ≠ .pseudo) :
    (∃ b, i = .rxByte b ∧ exec i s = .next (receiveByte b s))
    ∨ ∃ t, exec i s = .next t ∧ presentedBytes [i] = [] ∧ t.dec.rxWin = s.dec.rxWin
        ∧ t.dec.rxCnt = s.dec.rxCnt := by
  obtain ⟨noReset, noPseudo⟩ := plain
  obtain ⟨t, run⟩ := exec_answers i s
  by_cases byte : ∃ b, i = .rxByte b
  · obtain ⟨b, rfl⟩ := byte
    exact .inl ⟨b, rfl, rfl⟩
  · have silent : presentedBytes [i] = [] := by
      cases i with
      | rxByte b => exact absurd ⟨b, rfl⟩ byte
      | _ => rfl
    refine .inr ⟨t, run, silent, ?_⟩
    cases exec_decChange run with
    | kept dec => simp [dec]
    | reset op => exact absurd op noReset
    | byte b op => exact absurd ⟨b, op⟩ byte
    | bytes bs op => exact absurd (op ▸ rfl) noPseudo
    | time dt _ dec => simp [dec, passTime]

/-- What DEC shows right after each byte of `ops` from `s` is what frames of `sets` show, the bytes that stand
in the window already taken off; after the last of them the window is empty. -/
def Delivers (sets : List ChannelSet) (ops : List Instr) (s : State) : Prop :=
  ∃ t, runOps ops s = some t ∧ t.dec.rxCnt = 0
    ∧ (statesAfterBytes ops s).map (fun u => u.rxResult)
      = (sets.flatMap fun _ => frameResults).drop s.dec.rxCnt.val
    ∧ ((statesAfterBytes ops s).filter fun u => u.rxResult = .accepted).map
        (fun u => (u.dec.snap, u.dec.rxCnt))
      = sets.map fun x => (canon x, 0)

/-- An operation that presents no byte and keeps the window delivers nothing and delays nothing. -/
theorem Delivers.cons_silent {sets : List ChannelSet} {i : Instr} {ops : List Instr} {s t : State}
    (run : exec i s = .next t) (silent : presentedBytes [i] = []) (count : t.dec.rxCnt = s.dec.rxCnt)
    (rest : Delivers sets ops t) : Delivers sets (i :: ops) s := by
  simpa only [Delivers, runOps_cons ops run, statesAfterBytes_cons ops run, silent, List.map_nil,
    List.nil_append, count] using rest

/-- The states after the bytes of a longer list that begins with a byte. -/
theorem statesAfterBytes_rxByte (b : Byte) (ops : List Instr) (s : State) :
    statesAfterBytes (.rxByte b :: ops) s = receiveByte b s :: statesAfterBytes ops (receiveByte b s) := rfl

/-- A byte that does not fill the window is one more Pending of the first frame. -/
theorem Delivers.cons_part {x : ChannelSet} {xs : List ChannelSet} {b : Byte} {ops : List Instr} {s : State}
    (part : s.dec.rxCnt.val < 57) (rest : Delivers (x :: xs) ops (receiveByte b s)) :
    Delivers (x :: xs) (.rxByte b :: ops) s := by
  have kept := receive_of_part b part
  have count : (receiveByte b s).dec.rxCnt.val = s.dec.rxCnt.val + 1 := by
    rw [receiveByte_dec, kept]
    exact pendDec_rxCnt b part
  obtain ⟨t, runs, empty, results, published⟩ := rest
  rw [count, List.flatMap_cons] at results
  refine ⟨t, runs, empty, ?_, ?_⟩
  · rw [statesAfterBytes_rxByte, List.flatMap_cons, frameResults_drop_of_part _ part, ← results]
    simp [kept]
  · rw [statesAfterBytes_rxByte, ← published]
    simp [kept]

/-- A byte that completes the first frame is its Accepted, and the second frame is next. -/
theorem Delivers.cons_whole {x : ChannelSet} {xs : List ChannelSet} {b : Byte} {ops : List Instr} {s : State}
    (whole : heldBytes s.dec ++ [b] = frame x) (rest : Delivers xs ops (receiveByte b s)) :
    Delivers (x :: xs) (.rxByte b :: ops) s := by
  have accepted := receive_of_frame whole
  have full : s.dec.rxCnt.val = 57 := by simpa using congrArg List.length whole
  obtain ⟨t, runs, empty, results, published⟩ := rest
  rw [receiveByte_dec, accepted] at results
  refine ⟨t, runs, empty, ?_, ?_⟩
  · rw [statesAfterBytes_rxByte, full, List.map_cons, results, receiveByte_rxResult, accepted]
    rfl
  · simp [statesAfterBytes_rxByte, accepted, published, acceptDec]

/-- Commands and reads whose bytes, after those that stand in the window, are the frames of `sets` deliver
`sets`. -/
theorem delivers_of_frames {sets : List ChannelSet} {ops : List Instr} {s : State}
    (plain : ∀ i ∈ ops, i ≠ .reset ∧ i.format ≠ .pseudo)
    (stream : heldBytes s.dec ++ presentedBytes ops = sets.flatMap frame) : Delivers sets ops s := by
  induction ops generalizing s sets with
  | nil =>
    have short := s.dec.rxCnt.isLt
    have len := congrArg List.length stream
    cases sets with
    | nil =>
      have empty : s.dec.rxCnt = 0 := Fin.ext (by simpa using len)
      exact ⟨s, rfl, empty, by simp, rfl⟩
    | cons x xs =>
      simp at len
      omega
  | cons i ops ih =>
    obtain ⟨now, later⟩ := List.forall_mem_cons.mp plain
    rw [presentedBytes_cons] at stream
    rcases command_or_read_cases s now with ⟨b, rfl, run⟩ | ⟨t, run, silent, window, count⟩
    · cases sets with
      | nil => simp [presentedBytes] at stream
      | cons x xs =>
        have stream' : (heldBytes s.dec ++ [b]) ++ presentedBytes ops = frame x ++ xs.flatMap frame := by
          simpa [presentedBytes] using stream
        by_cases part : s.dec.rxCnt.val < 57
        · refine .cons_part part (ih later ?_)
          rwa [receiveByte_dec, receive_of_part b part, heldBytes_pendDec b part]
        · have full : s.dec.rxCnt.val = 57 := by omega
          obtain ⟨whole, behind⟩ := List.append_inj stream' (by simp [full])
          refine .cons_whole whole (ih later ?_)
          rwa [receiveByte_dec, receive_of_frame whole, heldBytes_of_empty rfl]
    · refine .cons_silent run silent count (ih later ?_)
      rw [silent] at stream
      rwa [heldBytes, window, count]

/-- Settles O27: between its bytes nothing moves the window, and each frame that fills it is accepted. -/
theorem perfectTransportDeliversEverySet : Obligations.PerfectTransportDeliversEverySet := by
  refine ⟨fun sets ops s empty plain stream => ?_, fun sets last s empty => ?_⟩
  · obtain ⟨t, runs, emptied, results, published⟩ : Delivers sets ops s :=
      delivers_of_frames plain (by rw [heldBytes_of_empty empty, stream, List.nil_append])
    refine ⟨t, runs, emptied, ?_, published⟩
    rw [results, empty]
    rfl
  · obtain ⟨before, emptied, still⟩ := receiveBytes_frames_of_empty sets empty
    obtain ⟨results, d, b, accepted, clock⟩ := receiveBytes_frame_of_empty last emptied
    have all : (receiveBytes ((sets ++ [last]).flatMap frame) s).1
        = (sets ++ [last]).flatMap fun _ => frameResults := by
      simp [receiveBytes_append, before, results]
    have dec : (receiveBytes ((sets ++ [last]).flatMap frame) s).2.dec = acceptDec d b (canon last) := by
      simp [receiveBytes_append, accepted]
    obtain ⟨enc, scn, rest⟩ := receiveBytes_frame ((sets ++ [last]).flatMap frame) s
    refine ⟨_, rfl, congrArg Result.rxs all, ?_⟩
    rw [State.answer_dec, dec]
    exact ⟨rfl, rfl, rfl, rfl, rfl, clock.trans still, clock.trans still, enc, scn, rest⟩

end Sys2Proof.Machine
end

section
/-! SUPPORT. Settled statements of 30_encoding.md on the code tables (R115 to R119): the encoder and the
decoder invert each other, and `rst` overrides the command ports. -/

namespace Sys2Proof.Machine

/-! ### Encoding and decoding (R115 to R119) -/

/-- Settles O53: a code of a command port is read back by its table, a set by its lanes (R102). -/
theorem decodeOfEncode : Obligations.DecodeOfEncode := by
  intro i wf
  cases i with
  | encLoad set => exact congrArg (Except.ok ∘ Instr.encLoad) (unpackLanes_packLanes set)
  | ovApply nom => exact congrArg (Except.ok ∘ Instr.ovApply) (unpackLanes_packLanes nom)
  | encode set => exact congrArg (Except.ok ∘ Instr.encode) (unpackLanes_packLanes set)
  | produce dt nom => exact congrArg (Except.ok ∘ Instr.produce dt) (unpackLanes_packLanes nom)
  | rxBytes bs =>
    cases bs with
    | nil => cases wf
    | cons b bs => rfl
  | _ => rfl

/-- The encoding of an operation drives the ports of its row. -/
theorem encode_format (i : Instr) : (encode i).format = i.format := by
  cases i <;> rfl

/-- Only a pseudo-operation can be ill formed (log 5). -/
theorem wellFormed_of_format {i : Instr} {p : Format} (h : i.format = p) (plain : p ≠ .pseudo) :
    i.wellFormed = true := by
  cases i with
  | rxBytes bs => exact absurd h.symm plain
  | _ => rfl

/-- What decodes is a well-formed operation of the ports it was presented on: RX_BYTES of no byte does not
decode (R124). -/
theorem decode_ok {r : Request} {i : Instr} (h : decode r = .ok i) :
    i.wellFormed = true ∧ i.format = r.format := by
  cases r with
  | rst b =>
    rw [decode] at h
    split_ifs at h
    cases h
    exact ⟨rfl, rfl⟩
  | encCmd cmd din =>
    cases h
    have port := decodeEncCmd_format cmd din
    exact ⟨wellFormed_of_format port (by decide), port⟩
  | rxCmd cmd data dt =>
    cases h
    have port := decodeRxCmd_format cmd data dt
    exact ⟨wellFormed_of_format port (by decide), port⟩
  | scCmd cmd id dt =>
    cases h
    have port := decodeScCmd_format cmd id dt
    exact ⟨wellFormed_of_format port (by decide), port⟩
  | pseudoRxBytes bs =>
    cases bs with
    | nil => cases h
    | cons b bs =>
      cases h
      exact ⟨rfl, rfl⟩
  | _ =>
    cases h
    exact ⟨rfl, rfl⟩

/-- Settles O54: what decodes is well formed, so its encoding decodes to it. -/
theorem decodedOperationsReencode : Obligations.DecodedOperationsReencode := by
  intro r i h
  obtain ⟨wf, port⟩ := decode_ok h
  exact ⟨wf, (encode_format i).trans port, decodeOfEncode i wf⟩

/-- Settles O55: each word stands in its port's table, which reads no other port (U18). -/
theorem codeWordsDecode : Obligations.CodeWordsDecode :=
  ⟨fun _ => rfl, fun _ => rfl, fun _ => rfl, fun _ => rfl, fun _ => rfl, fun _ => rfl,
    fun _ _ => rfl, rfl⟩

/-! ### `rst` and the command ports (R119, R267) -/

/-- With `rst` = 1 a port image asks for RESET alone, whatever stands on the command ports. -/
theorem requests_of_rst {p : InPorts} (h : p.rst = 1#1) : p.requests = [.rst 1#1] :=
  if_pos h

/-- Settles O45: the one request of such an image decodes to RESET. -/
theorem rstOverridesTheCommandPorts : Obligations.RstOverridesTheCommandPorts := by
  intro p s high none
  have reset : step (present p.requests s) = exec .reset s := by
    rw [requests_of_rst high, present_of_none _ none, step_of_decode (takeRequest_pending s _) rfl,
      takeRequest_takeRequest, takeRequest_pending_self none]
  exact ⟨resetBlock s, reset, rfl⟩

end Sys2Proof.Machine
end

section
/-! SUPPORT. Settled statements of 30_encoding.md on the values at the ports: the 448-bit port of a set
(R92, R102) and the engineering units (R98). -/

namespace Sys2Proof.Machine

/-! ### The port of a set (R92, R102) -/

/-- Channel `c` of a set's port is the record's packing (R102). -/
theorem packSet_channel (s : ChannelSet) (c : Fin 8) :
    (packSet s).extractLsb' (56 * c.val) 56 = packRec s[c] := by
  ext i hi
  rw [BitVec.getElem_extractLsb', packSet]
  simp only [BitVec.getLsbD_append]
  fin_cases c <;> grind

/-- Byte `k` of channel `c` on a set's port is byte `k` of the record's packing. -/
theorem packSet_byte (s : ChannelSet) (c : Fin 8) {k : Nat} (hk : k < 7) :
    (packSet s).extractLsb' (8 * (7 * c.val + k)) 8 = (packRec s[c]).extractLsb' (8 * k) 8 := by
  rw [← packSet_channel s c]
  apply BitVec.eq_of_getLsbD_eq
  intro i hi
  have lane : 8 * k + i < 56 := by omega
  simp only [BitVec.getLsbD_extractLsb', hi, lane, decide_true, Bool.true_and]
  exact congrArg _ (by omega)

/-- A status without reserved bits is carried whole (R94). -/
theorem carriedStatus_of_reserved {st : Byte} (h : st &&& ST_RSVD = 0) : carriedStatus st = st := by
  have whole : ST_RSVD ||| ST_CARRIED = BitVec.allOnes 8 := rfl
  calc carriedStatus st
      = (st &&& ST_RSVD) ||| (st &&& ST_CARRIED) := by rw [h, carriedStatus]; simp
    _ = st := by rw [← BitVec.and_or_distrib_left, whole, BitVec.and_allOnes]

/-- A record without reserved status bits stands on the wire as it is packed, byte by byte (R92). -/
theorem wireByte_of_reserved {r : ChRec} (h : r.status &&& ST_RSVD = 0) {k : Nat} (hk : k < 7) :
    wireByte r k = (packRec r).extractLsb' (8 * k) 8 := by
  by_cases field : k < 6
  · exact if_pos field
  · obtain rfl : k = 6 := by omega
    have status : (packRec r).extractLsb' (8 * 6) 8 = r.status :=
      congrArg ChRec.status (unpackRec_packRec r)
    rw [status]
    exact carriedStatus_of_reserved h

/-- Settles O13: byte `j` of the port is byte `j mod 7` of channel `j div 7`, as in the frame (R70). -/
theorem setPortReadsAsPayload : Obligations.SetPortReadsAsPayload := by
  intro s
  refine ⟨packSet_channel s, fun clean j hj => ?_⟩
  obtain ⟨c, k, hk, rfl⟩ : ∃ (c : Fin 8) (k : Nat), k < 7 ∧ j = 7 * c.val + k :=
    ⟨⟨j / 7, by omega⟩, j % 7, by omega, (Nat.div_add_mod j 7).symm⟩
  rw [← Nat.add_assoc, frame_record s c hk, wireByte_eq _ hk, wireByte_of_reserved (clean c) hk,
    packSet_byte s c hk]

/-! ### Engineering units (R98) -/

/-- Settles O59: each unit is a division by a number that is not 0. -/
theorem engineeringUnitsAreExact : Obligations.EngineeringUnitsAreExact := by
  have thousand : (1000 : Rat) ≠ 0 := by norm_num
  have ten : (10 : Rat) ≠ 0 := by norm_num
  exact ⟨fun _ => ⟨div_mul_cancel₀ _ thousand, div_mul_cancel₀ _ thousand, div_mul_cancel₀ _ ten⟩,
    fun _ => div_mul_cancel₀ _ thousand⟩

end Sys2Proof.Machine
end

section
/-! SUPPORT. Settled statements of 30_encoding.md on the pseudo-operations that repeat one command (R124):
RX_BYTES and SC_TICKS leave the state of their expansions. -/

namespace Sys2Proof.Machine

/-! ### RX_BYTES -/

/-- RX_BYTE of each byte in order leaves what RX_BYTES leaves, before its answer (R124). -/
theorem runOps_rxByte (bs : List Byte) (s : State) :
    runOps (bs.map .rxByte) s = some (receiveBytes bs s).2 := by
  induction bs generalizing s with
  | nil => rfl
  | cons b bs ih =>
    rw [List.map_cons, runOps_cons (t := receiveByte b s) _ rfl, ih, receiveBytes_cons]

/-- RX_BYTES has one result for each byte. -/
@[simp] theorem receiveBytes_results_length (bs : List Byte) (s : State) :
    (receiveBytes bs s).1.length = bs.length := by
  induction bs generalizing s with
  | nil => rfl
  | cons b bs ih => rw [receiveBytes_cons, List.length_cons, ih, List.length_cons]

/-- The `k`-th result of RX_BYTES is `rx_result` after the `k`-th byte. -/
theorem receiveBytes_result (bs : List Byte) (s : State) {k : Nat} (hk : k < bs.length) :
    (receiveBytes bs s).1[k]? = some (receiveBytes (bs.take (k + 1)) s).2.rxResult := by
  induction bs generalizing s k with
  | nil => cases hk
  | cons b bs ih =>
    rw [receiveBytes_cons, List.take_succ_cons, receiveBytes_cons]
    cases k with
    | zero => rfl
    | succ k => exact ih (receiveByte b s) (Nat.lt_of_succ_lt_succ hk)

/-- RX_BYTES appends its bytes to the rx stream (R61). -/
@[simp] theorem receiveBytes_rxStream (bs : List Byte) (s : State) :
    (receiveBytes bs s).2.rxStream = s.rxStream ++ bs := by
  induction bs generalizing s with
  | nil => simp
  | cons b bs ih => simp [receiveBytes_cons, ih]

/-- Settles O25: RX_BYTES is `receiveBytes`, and so are its RX_BYTEs up to each byte. -/
theorem rxBytesIsItsExpansion : Obligations.RxBytesIsItsExpansion := by
  intro bs s
  have each : ∀ k < bs.length, ∃ v, runOps ((bs.take (k + 1)).map .rxByte) s = some v
      ∧ (receiveBytes bs s).1[k]? = some v.rxResult :=
    fun k hk => ⟨_, runOps_rxByte (bs.take (k + 1)) s, receiveBytes_result bs s hk⟩
  exact ⟨_, _, _, rfl, runOps_rxByte bs s, rfl, receiveBytes_results_length bs s, each,
    receiveBytes_rxStream bs s, receiveBytes_frame bs s⟩

/-! ### SC_TICKS -/

/-- Ticks do not depend on the last answer. -/
theorem tickRuns_answer (n : Nat) (dt : U32) (s : State) (r : Result) :
    tickRuns n dt (s.answer r) = (tickRuns n dt s).answer r := by
  induction n generalizing s with
  | zero => rfl
  | succ n ih => exact ih (tickRun dt s)

/-- SC_TICK `n` times leaves what `n` ticks leave, but for the answer (R124). -/
theorem runOps_scTick (n : Nat) (dt : U32) (s : State) :
    ∃ u, runOps (List.replicate n (.scTick dt)) s = some u
      ∧ u.answer .silent = (tickRuns n dt s).answer .silent := by
  induction n generalizing s with
  | zero => exact ⟨s, rfl, rfl⟩
  | succ n ih =>
    obtain ⟨u, run, same⟩ := ih ((tickRun dt s).answer .silent)
    refine ⟨u, (runOps_cons _ rfl).trans run, same.trans ?_⟩
    rw [tickRuns_answer]
    rfl

/-- Settles O35: both answer `silent`, on the state that `n` ticks leave. -/
theorem scTicksIsItsExpansion : Obligations.ScTicksIsItsExpansion := by
  intro n dt s
  obtain ⟨u, run, same⟩ := runOps_scTick n dt s
  exact ⟨(tickRuns n dt s).answer .silent, u, rfl, run, same.symm, tickRuns_frame n dt s⟩

end Sys2Proof.Machine
end

section
/-! SUPPORT. Settled statements of 40_frame_encoder.md on the frame as a list: its bytes at their offsets
(R130), when two sets share it (R132), and the frame of a parsed frame (R142). -/

namespace Sys2Proof.Machine

/-! ### Offsets (R130) -/

/-- Settles O10: channel `c`'s record stands at offset `1 + 7*c`, the checksum at 57. -/
theorem frameHoldsEveryField : Obligations.FrameHoldsEveryField := by
  intro s
  refine ⟨frame_length s, frame_header s, fun c => ?_, ?_⟩
  · have field (k : Nat) (hk : k < 7) : (frame s)[1 + 7 * c.val + k]? = (wireBytes s[c])[k]? :=
      frame_record s c hk
    exact ⟨field 0 (by decide), field 1 (by decide), field 2 (by decide), field 3 (by decide),
      field 4 (by decide), field 5 (by decide), field 6 (by decide)⟩
  · rw [frame_take_57]
    exact frame_checksum s

/-! ### Reserved status bits (R132, R142) -/

/-- The wire carries no reserved status bit, so clearing them changes no byte of a record (R94). -/
@[simp] theorem wireBytes_canonRec (r : ChRec) : wireBytes (canonRec r) = wireBytes r := by
  simp [wireBytes, canonRec]

theorem canon_toList (s : ChannelSet) : (canon s).toList = s.toList.map canonRec := by
  have mapped : canon s = s.map canonRec := ext_eight fun c => (canon_get s c).trans (by simp)
  rw [mapped, Vector.toList_map]

/-- Clearing the reserved status bits of a set changes no byte of its frame (R132). -/
@[simp] theorem frame_canon (s : ChannelSet) : frame (canon s) = frame s := by
  have body : frameBody (canon s) = frameBody s := by
    simp only [frameBody, canon_toList, List.flatMap_map, wireBytes_canonRec]
  rw [frame, body, frame]

/-- Settles O11: the frame of a set is that of its `canon`, which `parse` reads back. -/
theorem framesAgreeIffCanonAgrees : Obligations.FramesAgreeIffCanonAgrees := by
  intro s u
  constructor
  · intro same
    rw [← parse_frame s, same, parse_frame u]
  · intro same
    rw [← frame_canon s, same, frame_canon u]

/-- Settles O12: what is parsed is the set's `canon`, which has the set's frame. -/
theorem frameOfParsedFrame : Obligations.FrameOfParsedFrame := by
  intro s
  rw [parse_frame, frame_canon]

end Sys2Proof.Machine
end

section
/-! SUPPORT. Settled statements of 40_frame_encoder.md on the operations of ENC. What a frame in progress still
has to send is one list, `frameLeft`; each ENC_EMIT sends its first byte and leaves the rest. -/

namespace Sys2Proof.Machine

/-! ### ENC_NOP, ENC_RSV and ENC_LOAD (R134, R138, R139) -/

/-- Settles O1: both codes only quieten the result ports of ENC. -/
theorem encNoOpsKeepEveryRegister : Obligations.EncNoOpsKeepEveryRegister :=
  ⟨fun _ => ⟨rfl, rfl⟩, fun s => ⟨(encIdle s).answer .silent, rfl, rfl, rfl, rfl, rfl, rfl,
    ⟨rfl, rfl, rfl⟩, ⟨rfl, rfl⟩, ⟨rfl, rfl⟩⟩⟩

theorem loadSet_of_idle (set : ChannelSet) {s : State} (idle : s.enc.encBusy = false) :
    loadSet set s
      = (s.setEnc (loadedEnc set) { EncOut.quiet with encAck := true }).answer (.ack true) := by
  simp [loadSet, idle]

theorem loadSet_of_busy (set : ChannelSet) {s : State} (busy : s.enc.encBusy = true) :
    loadSet set s = (s.setEnc s.enc EncOut.quiet).answer (.ack false) :=
  if_pos busy

/-- ENC_LOAD emits no byte (R134). -/
@[simp] theorem loadSet_txStream (set : ChannelSet) (s : State) :
    (loadSet set s).txStream = s.txStream := by
  rcases loadSet_cases set s with ⟨_, h⟩ | ⟨_, h⟩ <;> simp [h]

/-- Settles O2, by whether ENC is busy. -/
theorem encLoadLatchesOrRefuses : Obligations.EncLoadLatchesOrRefuses := by
  refine ⟨fun _ => rfl, fun set s =>
    ⟨loadSet set s, rfl, fun idle => ?_, fun busy => ?_, loadSet_txStream set s, loadSet_frame set s⟩⟩
  · rw [loadSet_of_idle set idle]
    exact ⟨rfl, rfl, rfl⟩
  · rw [loadSet_of_busy set busy]
    exact ⟨rfl, rfl, rfl⟩

/-! ### One ENC_EMIT (R135, R136) -/

/-- The result ports of ENC when the byte `b` leaves (R135). -/
def EncOut.sends (b : Byte) : EncOut := { encAck := false, txValid := true, txData := b }

theorem emitByte_of_idle {s : State} (idle : s.enc.encBusy = false) :
    emitByte s = (s.setEnc s.enc EncOut.quiet).answer (.tx none) := by
  simp [emitByte, idle]

theorem emitByte_of_busy {s : State} (busy : s.enc.encBusy = true) :
    emitByte s = ((s.setEnc (emittedEnc s.enc) (.sends (nextTxByte s.enc))).appendTx
      (nextTxByte s.enc)).answer (.tx (some (nextTxByte s.enc))) :=
  if_pos busy

/-- At offset 57 the byte that leaves is the running checksum (R136). -/
theorem nextTxByte_of_not_lt {e : Enc} (h : ¬ e.encIdx.val < 57) : nextTxByte e = e.encXor :=
  if_neg h

/-- The byte that leaves is the frame's byte at the offset: the running checksum has become its last one
(R57 item 2). -/
theorem frame_nextTxByte {e : Enc} (inv : EncInv e) (busy : e.encBusy = true) :
    (frame e.encSet)[e.encIdx.val]? = some (nextTxByte e) := by
  have lt := e.encIdx.isLt
  by_cases below : e.encIdx.val < 57
  · rw [(emittedEnc_of_lt below).1]
    exact frame_fbyte e.encSet below
  · have last : e.encIdx.val = 57 := by omega
    have sum := inv.busy busy
    rw [last, frame_take_57] at sum
    rw [nextTxByte_of_not_lt below, sum, last]
    exact frame_checksum e.encSet

/-- Settles O4: below offset 57 the byte that leaves is `fbyte`, the frame's byte there. -/
theorem encEmitSendsTheNextByte : Obligations.EncEmitSendsTheNextByte := by
  refine ⟨fun _ => rfl, fun s =>
    ⟨emitByte s, rfl, fun idle => ?_, fun b busy below byte => ?_, emitByte_frame s⟩⟩
  · rw [emitByte_of_idle idle]
    exact ⟨rfl, rfl, rfl, rfl⟩
  · obtain rfl : fbyte s.enc.encSet s.enc.encIdx.val = b :=
      Option.some.inj ((frame_fbyte _ below).symm.trans byte)
    obtain ⟨sent, next⟩ := emittedEnc_of_lt below
    rw [emitByte_of_busy busy, sent, next]
    exact ⟨rfl, Nat.mod_eq_of_lt (by omega), rfl, busy, rfl, rfl, rfl, rfl⟩

/-- Settles O5: the running checksum leaves, which by the invariant is the frame's. -/
theorem encEmitSendsTheChecksum : Obligations.EncEmitSendsTheChecksum := by
  intro s busy last
  have full : ¬ s.enc.encIdx.val < 57 := by omega
  have sent : nextTxByte s.enc = s.enc.encXor := nextTxByte_of_not_lt full
  have run := emitByte_of_busy busy
  rw [sent, emittedEnc_of_not_lt full] at run
  have checksum (inv : EncInv s.enc) : s.enc.encXor = xor8 ((frame s.enc.encSet).take 57)
      ∧ (frame s.enc.encSet)[57]? = some s.enc.encXor := by
    have sum := inv.busy busy
    have byte := frame_nextTxByte inv busy
    rw [last] at sum
    rw [last, sent] at byte
    exact ⟨sum, byte⟩
  refine ⟨emitByte s, rfl, ?_, ?_, ?_, ?_, checksum, emitByte_frame s⟩ <;> rw [run] <;> rfl

/-! ### What is left of a frame (R73, R137) -/

/-- The bytes of the frame in progress that have not left yet; none while idle. -/
def frameLeft (e : Enc) : List Byte := if e.encBusy then (frame e.encSet).drop e.encIdx.val else []

theorem frameLeft_of_busy {e : Enc} (busy : e.encBusy = true) :
    frameLeft e = (frame e.encSet).drop e.encIdx.val :=
  if_pos busy

theorem frameLeft_of_idle {e : Enc} (idle : e.encBusy = false) : frameLeft e = [] := by
  simp [frameLeft, idle]

/-- Something is left of a frame in progress only. -/
theorem busy_of_frameLeft {e : Enc} (left : frameLeft e ≠ []) : e.encBusy = true := by
  by_contra idle
  exact left (frameLeft_of_idle (Bool.eq_false_of_not_eq_true idle))

/-- Behind the byte that leaves, the frame from the next offset on is left (R135, R136). -/
theorem frameLeft_emittedEnc {e : Enc} (busy : e.encBusy = true) :
    frameLeft (emittedEnc e) = (frame e.encSet).drop (e.encIdx.val + 1) := by
  have lt := e.encIdx.isLt
  by_cases below : e.encIdx.val < 57
  · obtain ⟨set, _, keeps⟩ := emittedEnc_keeps e
    have idx : (emittedEnc e).encIdx.val = e.encIdx.val + 1 := by
      rw [(emittedEnc_of_lt below).2]
      exact Nat.mod_eq_of_lt (by omega)
    rw [frameLeft_of_busy ((keeps (by omega)).trans busy), set, idx]
  · rw [emittedEnc_of_not_lt below, frameLeft_of_idle rfl, List.drop_of_length_le]
    rw [frame_length]
    omega

/-- ENC_EMIT sends the first byte that is left of the frame, and leaves the others. -/
theorem frameLeft_cons {e : Enc} (inv : EncInv e) (busy : e.encBusy = true) :
    frameLeft e = nextTxByte e :: frameLeft (emittedEnc e) := by
  rw [frameLeft_of_busy busy, frameLeft_emittedEnc busy, List.drop_eq_getElem?_toList_append,
    frame_nextTxByte inv busy]
  rfl

theorem encInv_emittedEnc {e : Enc} (inv : EncInv e) (busy : e.encBusy = true) : EncInv (emittedEnc e) :=
  (encUnitInv_emittedEnc (tx := (frame e.encSet).take e.encIdx.val) ⟨inv, fun _ => ⟨[], rfl⟩⟩ busy).regs

theorem encInv_loadedEnc (set : ChannelSet) : EncInv (loadedEnc set) :=
  (encUnitInv_loadedEnc set []).regs

/-- ENC_EMIT with `b` the first byte left: `b` is sent, and what is left is the rest. -/
theorem emitByte_of_frameLeft {s : State} {b : Byte} {rest : List Byte} (inv : EncInv s.enc)
    (left : frameLeft s.enc = b :: rest) :
    (emitByte s).encOut = .sends b ∧ (emitByte s).txStream = s.txStream ++ [b]
      ∧ EncInv (emitByte s).enc ∧ frameLeft (emitByte s).enc = rest := by
  have busy := busy_of_frameLeft (by simp [left] : frameLeft s.enc ≠ [])
  obtain ⟨rfl, rfl⟩ := List.cons.inj ((frameLeft_cons inv busy).symm.trans left)
  rw [emitByte_of_busy busy]
  exact ⟨rfl, rfl, encInv_emittedEnc inv busy, rfl⟩

/-! ### ENCODE (R137) -/

/-- ENC_EMITs in a row send the bytes that are left, in order; the result ports show the last of them. -/
theorem emitBytes_of_frameLeft {bytes rest : List Byte} {s : State} (inv : EncInv s.enc)
    (left : frameLeft s.enc = bytes ++ rest) :
    (emitBytes bytes.length s).1 = bytes
      ∧ (emitBytes bytes.length s).2.txStream = s.txStream ++ bytes
      ∧ (emitBytes bytes.length s).2.encOut = bytes.foldl (fun _ b => .sends b) s.encOut := by
  induction bytes generalizing s with
  | nil => simp
  | cons b bytes ih =>
    obtain ⟨out, tx, inv', left'⟩ := emitByte_of_frameLeft inv left
    obtain ⟨sent, stream, shown⟩ := ih inv' left'
    rw [List.length_cons, emitBytes_succ]
    refine ⟨?_, ?_, ?_⟩
    · rw [sent, out]
      rfl
    · rw [stream, tx, List.append_assoc]
      rfl
    · rw [shown, out, List.foldl_cons]

theorem encodeSet_of_idle (set : ChannelSet) {s : State} (idle : s.enc.encBusy = false) :
    encodeSet set s
      = (emitBytes 58 (loadSet set s)).2.answer (.emitted (emitBytes 58 (loadSet set s)).1) := by
  have ack : (loadSet set s).encOut.encAck = true := by simp [loadSet_of_idle set idle]
  simp [encodeSet, ack]

/-- Settles O6: right after the load the whole frame is left, and 58 ENC_EMITs send it. -/
theorem encodeEmitsItsFrame : Obligations.EncodeEmitsItsFrame := by
  intro set s idle
  have loaded : (loadSet set s).enc = loadedEnc set := by simp [loadSet_of_idle set idle]
  have whole : frameLeft (loadSet set s).enc = frame set ++ [] := by
    rw [loaded, List.append_nil]
    rfl
  obtain ⟨sent, stream, shown⟩ := emitBytes_of_frameLeft (loaded ▸ encInv_loadedEnc set) whole
  rw [frame_length] at sent stream shown
  have run := encodeSet_of_idle set idle
  refine ⟨encodeSet set s, rfl, ?_, ?_, encodeSet_enc_of_idle set idle, ?_, encodeSet_frame set s⟩
  · rw [run, State.answer_txStream, stream, loadSet_txStream]
  · rw [run, State.answer_result, sent]
  · rw [run, State.answer_encOut, shown, frame_take_57, frame, List.foldl_concat]
    rfl

/-! ### Other operations between the bytes of a frame (R73) -/

/-- A command or a read that is no ENC_EMIT emits nothing, and keeps ENC or loads an idle one. -/
theorem exec_tx_of_ne_encEmit {i : Instr} {s t : State} (plain : i ≠ .reset ∧ i.format ≠ .pseudo)
    (notEmit : i ≠ .encEmit) (run : exec i s = .next t) :
    t.txStream = s.txStream
      ∧ (t.enc = s.enc ∨ s.enc.encBusy = false ∧ ∃ set, t.enc = loadedEnc set) := by
  obtain ⟨noReset, noPseudo⟩ := plain
  cases exec_encChange run with
  | kept enc tx => exact ⟨tx, .inl enc⟩
  | reset op => exact absurd op noReset
  | loaded set op idle enc =>
    subst op
    cases run
    exact ⟨loadSet_txStream set s, .inr ⟨idle, set, enc⟩⟩
  | emitted op => exact absurd op notEmit
  | sent _ op =>
    rcases op with ⟨_, rfl⟩ | ⟨_, _, rfl⟩
    · exact absurd rfl noPseudo
    · exact absurd rfl noPseudo

/-- Commands and reads send the bytes that are left, one for each ENC_EMIT, busy or not at the start: once
the frame is over no ENC_EMIT follows. -/
theorem runOps_tx_of_frameLeft {ops : List Instr} {s : State} (inv : EncInv s.enc)
    (plain : ∀ i ∈ ops, i ≠ .reset ∧ i.format ≠ .pseudo)
    (enough : ops.count .encEmit ≤ (frameLeft s.enc).length) :
    ∃ t, runOps ops s = some t
      ∧ t.txStream = s.txStream ++ (frameLeft s.enc).take (ops.count .encEmit) := by
  induction ops generalizing s with
  | nil => exact ⟨s, rfl, by simp⟩
  | cons i ops ih =>
    obtain ⟨now, later⟩ := List.forall_mem_cons.mp plain
    by_cases emit : i = .encEmit
    · subst emit
      rw [List.count_cons_self] at enough ⊢
      obtain ⟨b, rest, left⟩ := List.exists_cons_of_length_pos (Nat.zero_lt_of_lt enough)
      obtain ⟨_, tx, inv', left'⟩ := emitByte_of_frameLeft inv left
      rw [left, List.length_cons] at enough
      obtain ⟨t, runs, stream⟩ := ih inv' later (by rw [left']; omega)
      refine ⟨t, (runOps_cons ops rfl).trans runs, ?_⟩
      rw [stream, tx, left', left, List.take_succ_cons, List.append_assoc]
      rfl
    · obtain ⟨u, run⟩ := exec_answers i s
      rw [List.count_cons_of_ne emit] at enough ⊢
      rw [runOps_cons ops run]
      obtain ⟨tx, enc | ⟨idle, set, enc⟩⟩ := exec_tx_of_ne_encEmit now emit run
      · rw [← enc] at inv enough ⊢
        rw [← tx]
        exact ih inv later enough
      · rw [frameLeft_of_idle idle] at enough ⊢
        have noEmit : ops.count .encEmit = 0 := Nat.le_zero.mp enough
        obtain ⟨t, runs, stream⟩ := ih (enc ▸ encInv_loadedEnc set) later (noEmit ▸ Nat.zero_le _)
        exact ⟨t, runs, by simpa [noEmit, tx] using stream⟩

/-- Settles O7: what is left of the frame in progress is the frame from `enc_idx` on. -/
theorem frameLeavesInOrderUnderInterleaving : Obligations.FrameLeavesInOrderUnderInterleaving := by
  intro ops s inv busy plain enough
  rw [← frameLeft_of_busy busy]
  refine runOps_tx_of_frameLeft inv plain ?_
  rwa [frameLeft_of_busy busy, List.length_drop, frame_length]

end Sys2Proof.Machine
end

section
/-! SUPPORT. Settled statements of 41_frame_decoder.md on DECODE: the verdict on 58 bytes in terms of the
header and the sum of all bytes (R161, R162), on a frame (R168) and on a frame with one bit flipped (R169). -/

namespace Sys2Proof.Machine

/-! ### The verdict (R161, R162) -/

/-- The checksum test as the rule says it, on the byte at offset 57 (R161). -/
theorem ckOk_iff_checksum {w : List Byte} (h : w.length = 58) :
    ckOk w = true ↔ w[57]? = some (xor8 (w.take 57)) := by
  rw [byteAt_some (by omega), Option.some.injEq]
  exact beq_iff_eq.trans eq_comm

theorem decodeFrame_of_length_ne {w : List Byte} (h : w.length ≠ 58) : decodeFrame w = .badLength :=
  if_pos h

theorem decodeFrame_of_badHeader {w : List Byte} (len : w.length = 58) (header : w[0]? ≠ some HEADER) :
    decodeFrame w = .badHeader := by
  simp [decodeFrame, len, mt (hdrOk_iff len).mp header]

theorem decodeFrame_of_badSum {w : List Byte} (len : w.length = 58) (header : w[0]? = some HEADER)
    (sum : xor8 w ≠ 0x00#8) : decodeFrame w = .checksumMismatch := by
  simp [decodeFrame, len, (hdrOk_iff len).mpr header, mt (ckOk_iff len).mp sum]

theorem decodeFrame_of_good {w : List Byte} (len : w.length = 58) (header : w[0]? = some HEADER)
    (sum : xor8 w = 0x00#8) : decodeFrame w = .ok (parse w) := by
  simp [decodeFrame, len, (hdrOk_iff len).mpr header, (ckOk_iff len).mpr sum]

/-- To answer changes no unit, no stream, no parameter and no presented operation. -/
theorem answer_frame (r : Result) (s : State) :
    encKept s (s.answer r) ∧ decKept s (s.answer r) ∧ scnKept s (s.answer r) ∧ restKept s (s.answer r) :=
  ⟨⟨rfl, rfl, rfl⟩, ⟨rfl, rfl, rfl⟩, ⟨rfl, rfl⟩, ⟨rfl, rfl⟩⟩

/-- Settles O22: byte 57 is the sum of the others exactly when the sum of all is 0. -/
theorem decodeGivesOneVerdict : Obligations.DecodeGivesOneVerdict := by
  intro buf s
  have forms (len : buf.length = 58) : buf[57]? = some (xor8 (buf.take 57)) ↔ xor8 buf = 0x00#8 :=
    (ckOk_iff_checksum len).symm.trans (ckOk_iff len)
  exact ⟨_, _, rfl, rfl, forms, decodeFrame_of_length_ne, decodeFrame_of_badHeader,
    fun len header byte => decodeFrame_of_badSum len header (mt (forms len).mpr byte),
    fun len header byte => decodeFrame_of_good len header ((forms len).mp byte), answer_frame _ s⟩

/-! ### Round trip (R168) -/

/-- A valid record has no reserved status bit, so clearing them changes nothing (R96, R167). -/
theorem canonRec_of_validRec {r : ChRec} (valid : validRec r = true) : canonRec r = r := by
  simp only [validRec, Bool.and_eq_true, beq_iff_eq] at valid
  obtain ⟨_, clear⟩ := valid
  simp [canonRec, carriedStatus_of_reserved clear]

theorem canon_of_validSet {set : ChannelSet} (valid : validSet set = true) : canon set = set := by
  refine ext_eight fun c => ?_
  rw [canon_get]
  exact canonRec_of_validRec (List.all_eq_true.mp valid _ (by simp))

@[simp] theorem systemVoltageMv_canon (set : ChannelSet) :
    systemVoltageMv (canon set) = systemVoltageMv set := by
  rw [systemVoltageMv, canon_toList, List.map_map]
  rfl

@[simp] theorem totalCurrentMa_canon (set : ChannelSet) :
    totalCurrentMa (canon set) = totalCurrentMa set := by
  rw [totalCurrentMa, canon_toList, List.map_map]
  rfl

/-- Settles O23: a frame decodes to the `canon` of its set, which changes status bytes only. -/
theorem decodeOfFrameIsTheSet : Obligations.DecodeOfFrameIsTheSet := fun set _ =>
  ⟨_, rfl, congrArg Result.decoded (decodeFrame_frame set), canon_of_validSet, systemVoltageMv_canon set,
    totalCurrentMa_canon set⟩

/-! ### One bit flipped (R169) -/

/-- Changing one byte by `m` changes the sum by `m`. -/
theorem xor8_modify (m : Byte) {l : List Byte} {j : Nat} (h : j < l.length) :
    xor8 (l.modify j (· ^^^ m)) = xor8 l ^^^ m := by
  induction l generalizing j with
  | nil => cases h
  | cons b l ih =>
    cases j with
    | zero =>
      rw [List.modify_zero_cons, xor8_cons, xor8_cons, BitVec.xor_assoc, BitVec.xor_comm m,
        BitVec.xor_assoc]
    | succ j =>
      rw [List.modify_succ_cons, xor8_cons, xor8_cons, ih (Nat.lt_of_succ_lt_succ h), BitVec.xor_assoc]

/-- A frame sums to 0 (R99). -/
@[simp] theorem xor8_frame (set : ChannelSet) : xor8 (frame set) = 0x00#8 := by
  simp [frame]

theorem bit_ne_zero {i : Nat} (h : i < 8) : 1#8 <<< i ≠ 0x00#8 := by
  interval_cases i <;> decide

/-- Settles O24: bit `i` in offset 0 spoils the header, and in any other the sum of the bytes. -/
theorem singleBitFlipIsRejected : Obligations.SingleBitFlipIsRejected := by
  intro set j i s hj hi
  refine ⟨_, rfl, congrArg Result.decoded ?_⟩
  have len : ((frame set).modify j (· ^^^ 1#8 <<< i)).length = 58 := by simp
  have byte : ((frame set).modify j (· ^^^ 1#8 <<< i))[0]?
      = some (if j = 0 then HEADER ^^^ 1#8 <<< i else HEADER) := by
    rw [List.getElem?_modify, frame_header]
    split_ifs <;> rfl
  have sum : xor8 ((frame set).modify j (· ^^^ 1#8 <<< i)) = 1#8 <<< i := by
    rw [xor8_modify _ (by simpa using hj), xor8_frame, BitVec.zero_xor]
  split_ifs at byte ⊢ with first
  · refine decodeFrame_of_badHeader len ?_
    rw [byte]
    simpa using bit_ne_zero hi
  · exact decodeFrame_of_badSum len byte (ne_of_eq_of_ne sum (bit_ne_zero hi))

end Sys2Proof.Machine
end

section
/-! SUPPORT. Settled statements of 41_frame_decoder.md on the operations of DEC: RX_BYTE by the window with the
new byte (R170), RX_TIME and the causes of the link (R176, R177), the no-ops and SNAP_READ. -/

namespace Sys2Proof.Machine

/-! ### RX_NOP and RX_RSV (R178, R179) -/

/-- Settles O14: both codes only set the result port of DEC. -/
theorem rxNoOpsKeepEveryRegister : Obligations.RxNoOpsKeepEveryRegister :=
  ⟨fun _ _ => ⟨rfl, rfl⟩, fun s => ⟨(rxIdle s).answer .silent, rfl, rfl, rfl, rfl, rfl, rfl, rfl,
    ⟨rfl, rfl, rfl⟩, ⟨rfl, rfl⟩, ⟨rfl, rfl⟩⟩⟩

/-! ### RX_BYTE below 58 bytes (R172) -/

/-- RX_BYTE on the state is RX_BYTE on the registers of DEC (R170). -/
theorem receiveByte_of_receive {s : State} {b : Byte} {d : Dec} {r : RxResult}
    (recv : receive s.dec b = (d, r)) : (receiveByte b s).dec = d ∧ (receiveByte b s).rxResult = r := by
  rw [receiveByte_dec, receiveByte_rxResult, recv]
  exact ⟨rfl, rfl⟩

/-- WIN is `rx_win` (R62). -/
theorem readByte_win (s : State) (a : Nat) : s.readByte .win a = s.dec.rxWin.toList[a]? := rfl

/-- RX_BYTE is stored at `rx_cnt` (R170). -/
theorem storeByte_rxWin (d : Dec) (b : Byte) :
    (storeByte d b).rxWin.toList = d.rxWin.toList.set d.rxCnt.val b :=
  Vector.toList_set (h := d.rxCnt.isLt)

theorem pendDec_rxWin (d : Dec) (b : Byte) :
    (pendDec d b).rxWin.toList = d.rxWin.toList.set d.rxCnt.val b :=
  storeByte_rxWin d b

/-- A longer rx stream with as many more bytes in the window has the same cursor (R61). -/
theorem cursor_of_kept {s t : State} {b : Byte} (stream : t.rxStream = s.rxStream ++ [b])
    (count : t.dec.rxCnt.val = s.dec.rxCnt.val + 1) : cursor t = cursor s := by
  rw [cursor, cursor, stream, count, List.length_append, List.length_singleton]
  omega

/-- Settles O15: the byte is the one that is stored, and the count is one up with the stream. -/
theorem rxBytePendingKeepsTheByte : Obligations.RxBytePendingKeepsTheByte := by
  intro b s short
  have part : s.dec.rxCnt.val < 57 := by omega
  obtain ⟨dec, port⟩ := receiveByte_of_receive (receive_of_part b part)
  have count : (receiveByte b s).dec.rxCnt.val = s.dec.rxCnt.val + 1 := by
    rw [dec, pendDec_rxCnt b part]
  refine ⟨receiveByte b s, rfl, port, by rw [port]; rfl, congrArg Result.rx port, count,
    cursor_of_kept rfl count, ?_, fun a other => ?_, by rw [dec]; rfl, rfl, receiveByte_frame b s⟩
  · rw [readByte_win, dec, pendDec_rxWin]
    simp
  · rw [readByte_win, dec, pendDec_rxWin, List.getElem?_set_ne other.symm, readByte_win]

/-! ### RX_BYTE with 58 bytes (R173, R174) -/

/-- The bytes of WIN below `rx_cnt` are those that stand in the window (R62). -/
theorem memRead_win (s : State) : memRead .win 0 s.dec.rxCnt.val s = heldBytes s.dec := rfl

theorem heldBytes_concat (d : Dec) (b : Byte) : heldBytes d ++ [b] = windowWith d b := rfl

/-- A full window with a good header and sum is parsed and published (R173). -/
theorem receive_of_good {d : Dec} {b : Byte} (full : d.rxCnt.val = 57)
    (header : (windowWith d b)[0]? = some HEADER) (sum : xor8 (windowWith d b) = 0x00#8) :
    receive d b = (acceptDec d b (parse (windowWith d b)), .accepted) := by
  simp [receive, decodeFrame_of_good (by simp [full]) header sum]

/-- A full window with a bad header or sum drops its first byte; the header is tested first (R174, R267). -/
theorem receive_of_bad {d : Dec} {b : Byte} (full : d.rxCnt.val = 57)
    (bad : ¬ ((windowWith d b)[0]? = some HEADER ∧ xor8 (windowWith d b) = 0x00#8)) :
    receive d b = (failDec d b,
      if (windowWith d b)[0]? = some HEADER then .checksumMismatch else .badHeader) := by
  have len : (windowWith d b).length = 58 := by simp [full]
  split_ifs with header
  · simp [receive, decodeFrame_of_badSum len header fun sum => bad ⟨header, sum⟩]
  · simp [receive, decodeFrame_of_badHeader len header]

/-- The record of a channel from its seven bytes (R97, R164). -/
theorem parseRec_of_bytes {w : List Byte} {o : Nat} {b0 b1 b2 b3 b4 b5 b6 : Byte}
    (bytes : (w.drop o).take 7 = [b0, b1, b2, b3, b4, b5, b6]) :
    parseRec w o = { voltageMv := b1 ++ b0, currentMa := b3 ++ b2, temperatureDecic := b5 ++ b4
                     status := b6 &&& 0x0F#8 } := by
  have byte {k : Nat} (hk : k < 7) : byteAt w (o + k) = byteAt [b0, b1, b2, b3, b4, b5, b6] k := by
    rw [← bytes, byteAt, byteAt, List.getD_eq_getElem?_getD, List.getD_eq_getElem?_getD,
      List.getElem?_take_of_lt hk, List.getElem?_drop]
  have first : byteAt w o = b0 := byte (k := 0) (by decide)
  simp only [parseRec, first, byte, Nat.reduceLT]
  rfl

/-- After an accepted byte the window holds its 58 bytes (R173). -/
theorem acceptDec_rxWin {d : Dec} (full : d.rxCnt.val = 57) (b : Byte) (set : ChannelSet) :
    (acceptDec d b set).rxWin.toList = windowWith d b := by
  have stored : (acceptDec d b set).rxWin.toList = d.rxWin.toList.set d.rxCnt.val b :=
    storeByte_rxWin d b
  rw [stored, windowWith, full, List.set_eq_take_append_cons_drop]
  simp

/-- Settles O16: the window is parsed channel by channel, and published whole. -/
theorem rxByteAcceptsAndPublishes : Obligations.RxByteAcceptsAndPublishes := by
  intro b s w full window header sum
  rw [← full, memRead_win, heldBytes_concat] at window
  subst window
  obtain ⟨dec, port⟩ := receiveByte_of_receive (receive_of_good full header sum)
  refine ⟨receiveByte b s, rfl, port, by rw [port]; rfl, congrArg Result.rx port, ?_, ?_⟩
  · intro c b0 b1 b2 b3 b4 b5 b6 bytes
    rw [dec, ← parseRec_of_bytes bytes]
    exact parse_get _ c
  · have bytes : memRead .win 0 58 (receiveByte b s) = windowWith s.dec b := by
      rw [memRead, spaceBytes, dec, acceptDec_rxWin full]
      exact List.take_of_length_le (by simp [full])
    have moved : 57 ≤ s.rxStream.length → cursor (receiveByte b s) = cursor s + 58 := by
      intro enough
      have count : (acceptDec s.dec b (parse (windowWith s.dec b))).rxCnt.val = 0 := rfl
      simp only [cursor, dec, count, full, receiveByte_rxStream, List.length_append, List.length_singleton]
      omega
    refine ⟨?_, ?_, ?_, ?_, ?_, ?_, bytes, moved, rfl, receiveByte_frame b s⟩ <;> rw [dec] <;> rfl

/-- Settles O17: the window is the one RX_BYTE completed, without its first byte. -/
theorem rxByteRejectsAndMovesOne : Obligations.RxByteRejectsAndMovesOne := by
  intro b s w full window bad
  rw [← full, memRead_win, heldBytes_concat] at window
  subst window
  obtain ⟨dec, port⟩ := receiveByte_of_receive (receive_of_bad full bad)
  have code : rxCode (receiveByte b s).rxResult
      = if (windowWith s.dec b)[0]? = some HEADER then 3#2 else 1#2 := by
    rw [port]
    split_ifs <;> rfl
  refine ⟨receiveByte b s, rfl, port, code, rfl, by rw [dec]; rfl, ?_⟩
  refine ⟨fun a ha => ?_, ?_, fun enough => ?_, rfl, receiveByte_frame b s⟩
  · have shifted : (failDec s.dec b).rxWin.toList.take 57 = (windowWith s.dec b).drop 1 :=
      failDec_window s.dec b full
    rw [readByte_win, dec, ← List.getElem?_take_of_lt ha, shifted, List.getElem?_drop, Nat.add_comm]
  · rw [dec]
    exact failDec_eq s.dec b full
  · have count : (failDec s.dec b).rxCnt.val = 57 := rfl
    simp only [cursor, dec, count, full, receiveByte_rxStream, List.length_append, List.length_singleton]
    omega

/-! ### RX_TIME (R176) -/

theorem timedOut_iff (timeout silence : U32) :
    timedOut timeout silence = true ↔ timeout.toNat < silence.toNat :=
  decide_eq_true_iff

/-- No time is no change: a connected link is within its timeout (R57 item 4). -/
theorem passTime_zero {cfg : Config} {d : Dec} (inv : DecInv cfg d) :
    passTime cfg.linkTimeoutMs d 0#32 = d := by
  have clock : d.rxClockMs + 0#32 = d.rxClockMs := BitVec.add_zero _
  have silence : satAdd32 d.silenceMs 0#32 = d.silenceMs := by
    have := d.silenceMs.isLt
    apply BitVec.eq_of_toNat_eq
    rw [satAdd32_toNat, BitVec.toNat_ofNat]
    omega
  have link : (if timedOut cfg.linkTimeoutMs d.silenceMs then .disconnected else d.linkStatus)
      = d.linkStatus := by
    cases h : d.linkStatus with
    | disconnected => exact ite_self _
    | connected =>
      obtain ⟨_, within⟩ := inv.connected h
      exact if_neg (mt (timedOut_iff _ _).mp (Nat.not_lt.mpr within))
  rw [passTime, clock, silence, link]

/-- Settles O18, by whether the new silence is above the timeout. -/
theorem rxTimeCountsAndTimesOut : Obligations.RxTimeCountsAndTimesOut := by
  refine ⟨fun _ _ => rfl, fun dt s => ⟨(passRxTime dt s).answer .silent, rfl, ?_⟩⟩
  refine ⟨BitVec.toNat_add _ _, satAdd32_toNat _ _, fun out => ?_, fun within => ?_, rfl, fun inv none => ?_,
    rfl, rfl, rfl, ⟨rfl, rfl, rfl⟩, ⟨rfl, rfl⟩, ⟨rfl, rfl⟩⟩
  · exact if_pos ((timedOut_iff _ _).mpr out)
  · exact if_neg (mt (timedOut_iff _ _).mp (Nat.not_lt.mpr within))
  · subst none
    exact passTime_zero inv

/-! ### The causes of the link (R177, R263) -/

/-- RX_TIME never connects the link, and drops it past the timeout only (R176). -/
theorem passTime_linkStatus (timeout : U32) (d : Dec) (dt : U32) :
    (passTime timeout d dt).linkStatus = d.linkStatus
    ∨ (timeout.toNat < min (d.silenceMs.toNat + dt.toNat) (2 ^ 32 - 1)
      ∧ (passTime timeout d dt).linkStatus = .disconnected) := by
  by_cases out : timedOut timeout (satAdd32 d.silenceMs dt) = true
  · refine .inr ⟨?_, if_pos out⟩
    rwa [timedOut_iff, satAdd32_toNat] at out
  · exact .inl (if_neg out)

/-- Settles O19, by what an operation can do to what DEC publishes. -/
theorem linkStatusHasOnlyItsCauses : Obligations.LinkStatusHasOnlyItsCauses := by
  intro i s t h
  rcases (exec_decChange h).published with ⟨_, _, _, link, _⟩ | rfl | ⟨link, accepted⟩ | ⟨dt, op, dec⟩
  · simp +contextual [link]
  · cases h
    simp [Dec.reset]
  · exact ⟨fun _ _ => accepted, fun _ after => by simp [link] at after⟩
  · rcases passTime_linkStatus s.cfg.linkTimeoutMs s.dec dt with link | ⟨out, link⟩ <;> rw [← dec] at link
    · simp +contextual [link]
    · exact ⟨fun _ after => by simp [link] at after, fun _ _ => .inr ⟨dt, op, out⟩⟩

/-! ### SNAP_READ (R180) -/

/-- Settles O20: the view is the cell; before the first frame the cell is the zero set. -/
theorem snapReadAnswersTheCell : Obligations.SnapReadAnswersTheCell := by
  intro s
  obtain ⟨above, attained⟩ := systemVoltageMv_isMax s.dec.snap
  refine ⟨s.answer (.snapshot (snapView s.dec)), snapView s.dec, rfl, rfl, rfl, rfl, rfl, rfl,
    totalCurrentMa_eq_sum s.dec.snap, above, attained, fun inv none => ?_, answer_frame _ s⟩
  obtain ⟨snap, time, link⟩ := inv.invalid none
  have volts : systemVoltageMv zeroSet = 0 := by decide
  have milliamps : totalCurrentMa zeroSet = 0 := by decide
  simp only [snapView, snap, time, link, volts, milliamps, and_self]

end Sys2Proof.Machine
end

section
/-! SUPPORT. Settled statement on the source's consumer loop (41_frame_decoder.md R171): the window holds the
bytes at the loop's cursor, and RX_BYTE with 58 of them is the loop's next attempt. -/

namespace Sys2Proof.Machine

/-! ### The consumer loop (R171, R181) -/

/-- With fewer than 58 bytes at the cursor the loop makes no attempt. -/
theorem consumerAttempts_of_short (n : Nat) {bs : List Byte} (short : bs.length < 58) :
    consumerAttempts n bs = [] := by
  cases n with
  | zero => rfl
  | succ n => exact if_pos short

/-- An attempt on a good frame moves the cursor past it. -/
theorem consumerAttempts_of_ok (n : Nat) {w : List Byte} {set : ChannelSet} (bs : List Byte)
    (len : w.length = 58) (verdict : decodeFrame w = .ok set) :
    consumerAttempts (n + 1) (w ++ bs) = .ok set :: consumerAttempts n bs := by
  simp [consumerAttempts, List.take_left' len, List.drop_left' len, len, verdict]

/-- A failed attempt moves the cursor by one byte. -/
theorem consumerAttempts_of_failed (n : Nat) {w : List Byte} {v : DecodeResult} (bs : List Byte)
    (len : w.length = 58) (verdict : decodeFrame w = v) (failed : v = .badHeader ∨ v = .checksumMismatch) :
    consumerAttempts (n + 1) (w ++ bs) = v :: consumerAttempts n (w.drop 1 ++ bs) := by
  have behind : (w ++ bs).drop 1 = w.drop 1 ++ bs := List.drop_append_of_le_length (by omega)
  rcases failed with rfl | rfl <;> simp [consumerAttempts, List.take_left' len, len, verdict, behind]

/-! ### DEC -/

/-- After a failed attempt, all but the first of the 58 bytes stand in the window (R174). -/
theorem heldBytes_failDec {d : Dec} (b : Byte) (full : d.rxCnt.val = 57) :
    heldBytes (failDec d b) = (windowWith d b).drop 1 :=
  failDec_window d b full

/-- DEC shows the attempt of a byte, and then those of the bytes after it. -/
theorem shownAttempts_cons (b : Byte) (bs : List Byte) (s : State) :
    shownAttempts (b :: bs) s = shownAttempt (receiveByte b s) ++ shownAttempts bs (receiveByte b s) := rfl

/-- From the state `s` on, DEC shows the attempts of the loop on the window's bytes and `bs`. -/
def AttemptsMatch (bs : List Byte) (s : State) : Prop :=
  ∀ n, s.dec.rxCnt.val + bs.length ≤ n → shownAttempts bs s = consumerAttempts n (heldBytes s.dec ++ bs)

theorem attemptsMatch_nil (s : State) : AttemptsMatch [] s := by
  intro n _
  rw [List.append_nil, consumerAttempts_of_short n (by simp)]
  rfl

theorem heldBytes_cons (d : Dec) (b : Byte) (bs : List Byte) :
    heldBytes d ++ b :: bs = windowWith d b ++ bs := by
  rw [← heldBytes_concat, List.append_assoc, List.singleton_append]

/-- A byte that does not fill the window shows no attempt, and the loop waits for more bytes (R172). -/
theorem AttemptsMatch.cons_part {b : Byte} {bs : List Byte} {s : State} (part : s.dec.rxCnt.val < 57)
    (rest : AttemptsMatch bs (receiveByte b s)) : AttemptsMatch (b :: bs) s := by
  intro n enough
  obtain ⟨dec, port⟩ := receiveByte_of_receive (receive_of_part b part)
  have none : shownAttempt (receiveByte b s) = [] := by rw [shownAttempt, port]
  have window : heldBytes (receiveByte b s).dec = windowWith s.dec b := by
    rw [dec, heldBytes_pendDec b part, heldBytes_concat]
  rw [List.length_cons] at enough
  rw [shownAttempts_cons, none, List.nil_append, heldBytes_cons, ← window]
  exact rest n (by rw [dec, pendDec_rxCnt b part]; omega)

/-- A byte that completes a good window is an attempt that leaves the bytes after it (R173). -/
theorem AttemptsMatch.cons_ok {b : Byte} {bs : List Byte} {s : State} {set : ChannelSet}
    (full : s.dec.rxCnt.val = 57) (verdict : decodeFrame (windowWith s.dec b) = .ok set)
    (rest : AttemptsMatch bs (receiveByte b s)) : AttemptsMatch (b :: bs) s := by
  intro n enough
  obtain ⟨m, rfl⟩ : ∃ m, n = m + 1 := ⟨n - 1, by omega⟩
  have recv : receive s.dec b = (acceptDec s.dec b set, .accepted) := by simp [receive, verdict]
  obtain ⟨dec, port⟩ := receiveByte_of_receive recv
  have empty : (receiveByte b s).dec.rxCnt = 0 := by rw [dec]; rfl
  have shown : shownAttempt (receiveByte b s) = [.ok set] := by
    rw [shownAttempt, port, dec]
    rfl
  have left : bs.length ≤ m := by
    rw [List.length_cons] at enough
    omega
  have later := rest m (by rw [empty]; simpa using left)
  rw [shownAttempts_cons, shown, later, heldBytes_of_empty empty, heldBytes_cons,
    consumerAttempts_of_ok m bs (by simp [full]) verdict]
  rfl

/-- A byte that completes a bad window is an attempt that leaves all but the window's first byte (R174). -/
theorem AttemptsMatch.cons_failed {b : Byte} {bs : List Byte} {s : State} {r : RxResult} {v : DecodeResult}
    (full : s.dec.rxCnt.val = 57) (verdict : decodeFrame (windowWith s.dec b) = v)
    (failed : (v = .badHeader ∧ r = .badHeader) ∨ (v = .checksumMismatch ∧ r = .checksumMismatch))
    (rest : AttemptsMatch bs (receiveByte b s)) : AttemptsMatch (b :: bs) s := by
  intro n enough
  obtain ⟨m, rfl⟩ : ∃ m, n = m + 1 := ⟨n - 1, by omega⟩
  have recv : receive s.dec b = (failDec s.dec b, r) := by
    rcases failed with ⟨rfl, rfl⟩ | ⟨rfl, rfl⟩ <;> simp [receive, verdict]
  obtain ⟨dec, port⟩ := receiveByte_of_receive recv
  have count : (receiveByte b s).dec.rxCnt.val = 57 := by rw [dec]; rfl
  have shown : shownAttempt (receiveByte b s) = [v] := by
    rw [shownAttempt, port]
    rcases failed with ⟨rfl, rfl⟩ | ⟨rfl, rfl⟩ <;> rfl
  rw [List.length_cons] at enough
  have later := rest m (by omega)
  rw [shownAttempts_cons, shown, later, dec, heldBytes_failDec b full, heldBytes_cons,
    consumerAttempts_of_failed m bs (by simp [full]) verdict (failed.imp And.left And.left)]
  rfl

theorem attemptsMatch (bs : List Byte) (s : State) : AttemptsMatch bs s := by
  induction bs generalizing s with
  | nil => exact attemptsMatch_nil s
  | cons b bs ih =>
    have rest := ih (receiveByte b s)
    have len := windowWith_length s.dec b
    have lt := s.dec.rxCnt.isLt
    rcases decodeFrame_cases (windowWith s.dec b) with
      ⟨short, _⟩ | ⟨full, _, verdict⟩ | ⟨full, _, _, verdict⟩ | ⟨full, _, _, verdict⟩
    · exact .cons_part (by omega) rest
    · exact .cons_failed (by omega) verdict (.inl ⟨rfl, rfl⟩) rest
    · exact .cons_failed (by omega) verdict (.inr ⟨rfl, rfl⟩) rest
    · exact .cons_ok (by omega) verdict rest

/-- Settles O26: each byte is kept for a later attempt, or completes the loop's next one. -/
theorem decMatchesTheConsumerLoop : Obligations.DecMatchesTheConsumerLoop := attemptsMatch

end Sys2Proof.Machine
end

section
/-! SUPPORT. Settled statement on resynchronization (41_frame_decoder.md R182): after one byte too many the
first attempt drops that byte, and the window then holds the frame but for its last byte. -/

namespace Sys2Proof.Machine

/-! ### A window that fills up from empty -/

/-- RX_BYTES with one more byte at the end is the byte after the others. -/
theorem receiveBytes_concat (bs : List Byte) (b : Byte) (s : State) :
    receiveBytes (bs ++ [b]) s
      = ((receiveBytes bs s).1 ++ [(receive (receiveBytes bs s).2.dec b).2],
          receiveByte b (receiveBytes bs s).2) :=
  receiveBytes_append bs [b] s

/-- 58 bytes from an empty window are kept but for the last, which is received with all of them. -/
theorem receiveBytes_window_of_empty {w : List Byte} (len : w.length = 58) {s : State}
    (empty : s.dec.rxCnt = 0) :
    ∃ d b, d.rxCnt.val = 57 ∧ windowWith d b = w
      ∧ (receiveBytes w s).1 = List.replicate 57 .pending ++ [(receive d b).2]
      ∧ (receiveBytes w s).2.dec = (receive d b).1 ∧ (receiveBytes w s).2.rxResult = (receive d b).2 := by
  obtain ⟨bs, b, rfl⟩ : ∃ bs b, w = bs ++ [b] :=
    (List.eq_nil_or_concat' w).resolve_left (by rintro rfl; cases len)
  have short : bs.length = 57 := by simpa using len
  obtain ⟨results, held, _⟩ := receiveBytes_of_part bs (s := s) (by simp [empty, short])
  rw [heldBytes_of_empty empty, List.nil_append] at held
  rw [receiveBytes_concat, results, short]
  refine ⟨(receiveBytes bs s).2.dec, b, ?_, ?_, rfl, rfl, rfl⟩
  · rw [← heldBytes_length, held, short]
  · rw [← heldBytes_concat, held]

/-- A full window is accepted exactly when its header and its sum are good (R173, R174). -/
theorem receive_accepted_iff {d : Dec} {b : Byte} (full : d.rxCnt.val = 57) :
    (receive d b).2 = .accepted
      ↔ (windowWith d b)[0]? = some HEADER ∧ xor8 (windowWith d b) = 0x00#8 := by
  by_cases good : (windowWith d b)[0]? = some HEADER ∧ xor8 (windowWith d b) = 0x00#8
  · obtain ⟨header, sum⟩ := good
    rw [receive_of_good full header sum]
    exact iff_of_true rfl ⟨header, sum⟩
  · rw [receive_of_bad full good]
    split_ifs
    · exact iff_of_false (by simp) good
    · exact iff_of_false (by simp) good

/-! ### One garbage byte (R182) -/

/-- The checksum is the header exactly when the bytes between them sum to 0. -/
theorem checksum_eq_header_iff (x : ChannelSet) :
    (frame x)[57]? = some HEADER ↔ xor8 (((frame x).take 57).drop 1) = 0x00#8 := by
  have sum : xor8 (frameBody x) = HEADER ^^^ xor8 ((frameBody x).drop 1) := xor8_cons HEADER _
  rw [frame_checksum, frame_take_57, sum, Option.some.injEq]
  exact xor_left_eq_self_iff

/-- The window of the byte and the frame but for its checksum is good exactly when both are the header. -/
theorem garbage_window_good_iff (g : Byte) (x : ChannelSet) :
    ((g :: frameBody x)[0]? = some HEADER ∧ xor8 (g :: frameBody x) = 0x00#8)
      ↔ g = HEADER ∧ (frame x)[57]? = some HEADER := by
  rw [frame_checksum, xor8_cons, BitVec.xor_eq_zero_iff, List.getElem?_cons_zero, Option.some.injEq,
    Option.some.injEq]
  constructor <;> rintro ⟨rfl, same⟩ <;> exact ⟨rfl, same.symm⟩

/-- When the byte and the frame but for its checksum are no good window, the attempt on them drops the byte
and leaves the frame's bytes, so the checksum completes the frame. -/
theorem receiveBytes_garbage_frame {g : Byte} {x : ChannelSet} {s : State} (empty : s.dec.rxCnt = 0)
    (bad : ¬ (g = HEADER ∧ (frame x)[57]? = some HEADER)) :
    (receiveBytes (g :: frame x) s).1 = List.replicate 57 .pending
        ++ [if g = HEADER then .checksumMismatch else .badHeader] ++ [.accepted]
      ∧ ∃ d b, (receiveBytes (g :: frame x) s).2.dec = acceptDec d b (canon x) := by
  obtain ⟨d, b, full, window, results, dec, _⟩ :=
    receiveBytes_window_of_empty (w := g :: frameBody x) (by simp) empty
  have recv := receive_of_bad (b := b) full (by rwa [window, garbage_window_good_iff])
  simp only [window, List.getElem?_cons_zero, Option.some.injEq] at recv
  rw [recv] at results dec
  have whole : heldBytes (receiveBytes (g :: frameBody x) s).2.dec ++ [xor8 (frameBody x)] = frame x := by
    rw [dec, heldBytes_failDec b full, window]
    rfl
  have last := receive_of_frame whole
  have split : g :: frame x = (g :: frameBody x) ++ [xor8 (frameBody x)] := rfl
  rw [split, receiveBytes_concat, last, results]
  exact ⟨rfl, _, _, congrArg Prod.fst last⟩

/-- Settles O28: the first attempt is on the byte and the frame but for its checksum. -/
theorem resyncSkipsOneGarbageByte : Obligations.ResyncSkipsOneGarbageByte := by
  intro g s1 s2 s empty
  refine ⟨checksum_eq_header_iff s1, ?_, fun bad => ?_⟩
  · obtain ⟨d, b, full, window, _, _, port⟩ :=
      receiveBytes_window_of_empty (w := g :: frameBody s1) (by simp) empty
    refine ⟨_, rfl, ?_⟩
    rw [frame_take_57, State.answer_rxResult, port, receive_accepted_iff full, window]
    exact garbage_window_good_iff g s1
  · obtain ⟨results, d, b, dec⟩ := receiveBytes_garbage_frame empty bad
    have emptied : (receiveBytes (g :: frame s1) s).2.dec.rxCnt = 0 := by rw [dec]; rfl
    have first : (receiveBytes (g :: frame s1) s).2.dec.snap = canon s1 := by rw [dec]; rfl
    obtain ⟨results', d', b', dec', _⟩ := receiveBytes_frame_of_empty s2
      (s := (receiveBytes (g :: frame s1) s).2.answer (.rxs (receiveBytes (g :: frame s1) s).1)) emptied
    refine ⟨_, _, rfl, congrArg Result.rxs results, first, emptied, rfl, congrArg Result.rxs results', ?_⟩
    rw [State.answer_dec, dec']
    exact ⟨rfl, rfl⟩

end Sys2Proof.Machine
end

section
/-! SUPPORT. What SC_TICK does, once: its equations by status and clock, and its loop as firing the due entries
one after the other (42_scenario_state_machine.md R220 to R224). -/

namespace Sys2Proof.Machine

/-! ### SC_TICK by the clock (R222, R224) -/

theorem tickActive_of_lt {tl : Scenario} {c : Scn} {dt : U32}
    (before : (satAdd32 c.elapsedMs dt).toNat < tl.durationMs.toNat) :
    tickActive tl c dt
      = { c with
          elapsedMs := satAdd32 c.elapsedMs dt
          fired := (fireAll tl (satAdd32 c.elapsedMs dt) c).fired
          curEvent := (fireAll tl (satAdd32 c.elapsedMs dt) c).curEvent
          ov := (fireAll tl (satAdd32 c.elapsedMs dt) c).ov } :=
  if_neg (Nat.not_le.mpr before)

theorem tickActive_of_le {tl : Scenario} {c : Scn} {dt : U32}
    (reached : tl.durationMs.toNat ≤ (satAdd32 c.elapsedMs dt).toNat) :
    tickActive tl c dt
      = { c with
          scnStatus := .complete
          elapsedMs := satAdd32 c.elapsedMs dt
          fired := (fireAll tl (satAdd32 c.elapsedMs dt) c).fired
          curEvent := (fireAll tl (satAdd32 c.elapsedMs dt) c).curEvent
          settleMs := 0
          ov := clearOvs } :=
  if_pos reached

theorem tickComplete_of_lt {cfg : Config} {c : Scn} {dt : U32}
    (before : (satAdd32 c.settleMs dt).toNat < cfg.settleMs.toNat) :
    tickComplete cfg c dt = { c with settleMs := satAdd32 c.settleMs dt } :=
  if_neg (Nat.not_le.mpr before)

theorem tickComplete_of_le {cfg : Config} {c : Scn} {dt : U32}
    (reached : cfg.settleMs.toNat ≤ (satAdd32 c.settleMs dt).toNat) :
    tickComplete cfg c dt = { Scn.reset cfg.maxEntries with ov := c.ov } :=
  if_pos reached

/-- SC_TICK in complete never writes an override (R224). -/
@[simp] theorem tickComplete_ov (cfg : Config) (c : Scn) (dt : U32) : (tickComplete cfg c dt).ov = c.ov := by
  rcases Nat.lt_or_ge (satAdd32 c.settleMs dt).toNat cfg.settleMs.toNat with before | reached
  · rw [tickComplete_of_lt before]
  · rw [tickComplete_of_le reached]

/-! ### The loop (R222) -/

/-- Entry `p.2` of index `p.1` fires. -/
def fireOne (w : Firing) (p : Nat × Entry) : Firing :=
  { ov := w.ov.set p.2.channel.val (ovMerge w.ov[p.2.channel] p.2.spec) p.2.channel.isLt
    fired := w.fired.set p.1 true
    curEvent := eventIndex p.1 }

theorem fireEntry_of_due {now : U32} {i : Nat} {e : Entry} {w : Firing} (due : isDue now i e w.fired = true) :
    fireEntry now i e w = fireOne w (i, e) :=
  if_pos due

theorem fireEntry_of_not_due {now : U32} {i : Nat} {e : Entry} {w : Firing}
    (notDue : ¬ isDue now i e w.fired = true) : fireEntry now i e w = w :=
  if_neg notDue

theorem isDue_iff {now : U32} {i : Nat} {e : Entry} {fired : List Bool} :
    isDue now i e fired = true ↔ fired.getD i false = false ∧ e.offsetMs.toNat ≤ now.toNat := by
  simp [isDue]

/-- The due entries of a stretch of entries whose first has index `i`, with their indices. -/
def dueFrom (now : U32) (fired : List Bool) (i : Nat) (l : List Entry) : List (Nat × Entry) :=
  ((l.zipIdx i).map fun p => (p.2, p.1)).filter fun p => isDue now p.1 p.2 fired

theorem dueFrom_cons (now : U32) (fired : List Bool) (i : Nat) (e : Entry) (l : List Entry) :
    dueFrom now fired i (e :: l)
      = (if isDue now i e fired then [(i, e)] else []) ++ dueFrom now fired (i + 1) l := by
  simp only [dueFrom, List.zipIdx_cons, List.map_cons, List.filter_cons]
  split_ifs <;> rfl

/-- A due entry of a timeline is an entry of it, at its index. -/
theorem mem_dueEntries {now : U32} {fired : List Bool} {tl : Scenario} {p : Nat × Entry} :
    p ∈ dueEntries now fired tl ↔ tl.entries[p.1]? = some p.2 ∧ isDue now p.1 p.2 fired = true := by
  obtain ⟨i, e⟩ := p
  simp [dueEntries, List.mem_filter, List.mem_zipIdx_iff_getElem?]

/-- Whether an entry is due depends on no earlier bit of `fired`. -/
theorem dueFrom_set (now : U32) (fired : List Bool) {i j : Nat} (earlier : j < i) (l : List Entry) :
    dueFrom now (fired.set j true) i l = dueFrom now fired i l := by
  refine List.filter_congr fun p hp => ?_
  obtain ⟨⟨e, k⟩, hk, rfl⟩ := List.mem_map.mp hp
  have later : i ≤ k := (List.mem_zipIdx hk).1
  simp [isDue, List.getD_eq_getElem?_getD, List.getElem?_set_ne (show j ≠ k by omega)]

/-- The loop fires the entries that are due when it starts, one after the other. -/
theorem fireFrom_eq_foldl (now : U32) (i : Nat) (l : List Entry) (w : Firing) :
    fireFrom now i l w = (dueFrom now w.fired i l).foldl fireOne w := by
  induction l generalizing i w with
  | nil => rfl
  | cons e l ih =>
    rw [fireFrom, ih, dueFrom_cons]
    by_cases due : isDue now i e w.fired = true
    · rw [fireEntry_of_due due, if_pos due, fireOne, dueFrom_set now w.fired (Nat.lt_succ_self i)]
      rfl
    · rw [fireEntry_of_not_due due, if_neg due]
      rfl

theorem fireAll_eq_foldl (tl : Scenario) (now : U32) (c : Scn) :
    fireAll tl now c = (dueEntries now c.fired tl).foldl fireOne ⟨c.ov, c.fired, c.curEvent⟩ :=
  fireFrom_eq_foldl now 0 tl.entries _

/-! ### What firing leaves -/

@[simp] theorem fireOne_ov (w : Firing) (p : Nat × Entry) (c : Fin 8) :
    (fireOne w p).ov[c] = if p.2.channel = c then ovMerge w.ov[c] p.2.spec else w.ov[c] := by
  by_cases same : p.2.channel = c
  · subst same
    simp [fireOne]
  · have apart : p.2.channel.val ≠ c.val := fun h => same (Fin.ext h)
    simp [fireOne, same, apart]

/-- The overrides merge channel by channel, in the order of firing (R203, R222). -/
theorem foldl_fireOne_ov (due : List (Nat × Entry)) (w : Firing) (c : Fin 8) :
    (due.foldl fireOne w).ov[c]
      = ((due.filter fun p => p.2.channel = c).map fun p => p.2.spec).foldl ovMerge w.ov[c] := by
  induction due generalizing w with
  | nil => rfl
  | cons p due ih =>
    rw [List.foldl_cons, ih, fireOne_ov, List.filter_cons]
    by_cases same : p.2.channel = c <;> simp [same]

/-- The event is the last index that fired (R49). -/
theorem foldl_fireOne_curEvent (due : List (Nat × Entry)) (w : Firing) :
    (due.foldl fireOne w).curEvent = (due.getLast?.map fun p => eventIndex p.1).getD w.curEvent := by
  induction due using List.reverseRecOn with
  | nil => rfl
  | append_singleton due p _ => simp [fireOne]

/-- An entry has fired when it had before or fires now. -/
theorem foldl_fireOne_fired {due : List (Nat × Entry)} {w : Firing}
    (inside : ∀ p ∈ due, p.1 < w.fired.length) (i : Nat) :
    (due.foldl fireOne w).fired.getD i false = true
      ↔ w.fired.getD i false = true ∨ ∃ e, (i, e) ∈ due := by
  induction due generalizing w with
  | nil => simp
  | cons p due ih =>
    obtain ⟨j, e⟩ := p
    have here : j < w.fired.length := inside (j, e) List.mem_cons_self
    have rest : ∀ p ∈ due, p.1 < (fireOne w (j, e)).fired.length := fun p hp => by
      simpa [fireOne] using inside p (List.mem_cons_of_mem _ hp)
    rw [List.foldl_cons, ih rest]
    by_cases same : j = i
    · subst same
      simp [fireOne, List.getD_eq_getElem?_getD, here]
    · simp [fireOne, List.getD_eq_getElem?_getD, List.getElem?_set_ne same, Ne.symm same]

/-- After the loop, exactly the entries have fired that had before or are due by the clock (R222). -/
theorem fireAll_fired {tl : Scenario} {c : Scn} (wide : tl.entries.length ≤ c.fired.length) (now : U32)
    (i : Nat) :
    (fireAll tl now c).fired.getD i false = true
      ↔ c.fired.getD i false = true ∨ ∃ e, tl.entries[i]? = some e ∧ e.offsetMs.toNat ≤ now.toNat := by
  have inside : ∀ p ∈ dueEntries now c.fired tl, p.1 < c.fired.length := fun p hp => by
    obtain ⟨within, _⟩ := List.getElem?_eq_some_iff.mp (mem_dueEntries.mp hp).1
    exact Nat.lt_of_lt_of_le within wide
  rw [fireAll_eq_foldl, foldl_fireOne_fired inside]
  simp only [mem_dueEntries, isDue_iff]
  cases c.fired.getD i false <;> simp

end Sys2Proof.Machine
end

section
/-! SUPPORT. Settled statements of 42_scenario_state_machine.md on override specs: the merge, the mux on a nominal
set, and that overrides stay in range under a well-formed table (R203, R232, R233). -/

namespace Sys2Proof.Machine

/-! ### The merge (R203) -/

/-- Settles O37: the merge selects field by field, and with nothing selected every field is the old one. -/
theorem ovMergeReplacesSelectedFields : Obligations.OvMergeReplacesSelectedFields := by
  rintro old spec new rfl
  refine ⟨fun k => BitVec.getLsbD_or, rfl, rfl, rfl, rfl, rfl, fun none => ?_⟩
  simp [ovMerge, none]

/-! ### The mux (R232) -/

/-- The status of an effective record bit by bit: set wins over clear. -/
theorem applyRec_status_getLsbD (o : OvSpec) (r : ChRec) {k : Nat} (hk : k < 8) :
    (applyRec o r).status.getLsbD k
      = if o.mask.getLsbD 3 then
          (r.status.getLsbD k && !o.stClr.getLsbD k) || o.stSet.getLsbD k
        else r.status.getLsbD k := by
  rw [applyRec, apply_ite (fun b : Byte => b.getLsbD k)]
  simp [hk]

theorem applyRec_clearOv (r : ChRec) : applyRec clearOv r = r := by
  simp [applyRec, clearOv]

/-- Settles O41: channel by channel, `applyRec` of the override on the nominal record. -/
theorem ovApplyReplacesFieldwise : Obligations.OvApplyReplacesFieldwise := by
  intro nom s
  refine ⟨_, applyOvs s.scn.ov nom, rfl, rfl, fun c => ?_, fun clear => ?_, answer_frame _ s⟩
  · rw [applyOvs_get]
    exact ⟨rfl, rfl, rfl, fun k => applyRec_status_getLsbD _ _⟩
  · refine ext_eight fun c => ?_
    rw [applyOvs_get, clear c, applyRec_clearOv]

/-! ### Ranges (R96, R113) -/

theorem ovInRange_iff (o : OvSpec) :
    ovInRange o = true
      ↔ (o.mask.getLsbD 0 = true → o.voltageMv.toNat ≤ V_MAX)
        ∧ (o.mask.getLsbD 1 = true → o.currentMa.toNat ≤ I_MAX)
        ∧ (o.mask.getLsbD 2 = true →
            T_MIN ≤ asi16 o.temperatureDecic ∧ asi16 o.temperatureDecic ≤ T_MAX) := by
  simp only [ovInRange, Bool.and_eq_true, Bool.or_eq_true, Bool.not_eq_true', decide_eq_true_eq, and_assoc,
    ← Bool.not_eq_true, imp_iff_not_or]

theorem validRec_iff (r : ChRec) :
    validRec r = true
      ↔ r.voltageMv.toNat ≤ V_MAX ∧ r.currentMa.toNat ≤ I_MAX
        ∧ (T_MIN ≤ asi16 r.temperatureDecic ∧ asi16 r.temperatureDecic ≤ T_MAX)
        ∧ r.status &&& ST_RSVD = 0 := by
  simp only [validRec, Bool.and_eq_true, decide_eq_true_eq, beq_iff_eq, and_assoc]

theorem ovInRange_clearOv : ovInRange clearOv = true := by decide

theorem ovInRange_clearOvs (c : Fin 8) : ovInRange clearOvs[c] = true := by
  rw [clearOvs_get]
  exact ovInRange_clearOv

/-- A merge selects what either spec selects, and takes the field from one that does (R203). -/
theorem ovInRange_ovMerge {old spec : OvSpec} (hold : ovInRange old = true) (hspec : ovInRange spec = true) :
    ovInRange (ovMerge old spec) = true := by
  obtain ⟨oldV, oldI, oldT⟩ := (ovInRange_iff old).mp hold
  obtain ⟨specV, specI, specT⟩ := (ovInRange_iff spec).mp hspec
  have old_selects {k : Nat} (merged : (ovMerge old spec).mask.getLsbD k = true)
      (not : ¬ spec.mask.getLsbD k = true) : old.mask.getLsbD k = true := by
    simpa [ovMerge, not] using merged
  rw [ovInRange_iff]
  refine ⟨fun sel => ?_, fun sel => ?_, fun sel => ?_⟩
  · exact iteInduction (motive := fun v : U16 => v.toNat ≤ V_MAX) specV fun not => oldV (old_selects sel not)
  · exact iteInduction (motive := fun i : U16 => i.toNat ≤ I_MAX) specI fun not => oldI (old_selects sel not)
  · exact iteInduction (motive := fun t : U16 => T_MIN ≤ asi16 t ∧ asi16 t ≤ T_MAX) specT
      fun not => oldT (old_selects sel not)

theorem ovInRange_foldl_ovMerge {specs : List OvSpec} (fits : ∀ o ∈ specs, ovInRange o = true) {o : OvSpec}
    (h : ovInRange o = true) : ovInRange (specs.foldl ovMerge o) = true := by
  induction specs generalizing o with
  | nil => exact h
  | cons spec specs ih =>
    exact ih (fun o ho => fits o (List.mem_cons_of_mem _ ho))
      (ovInRange_ovMerge h (fits spec List.mem_cons_self))

/-! ### A valid set stays valid (R233) -/

/-- The status mask has four bits, so the mux leaves the reserved status bits alone (R232). -/
theorem applyRec_reserved (o : OvSpec) {r : ChRec} (clear : r.status &&& ST_RSVD = 0) :
    (applyRec o r).status &&& ST_RSVD = 0 := by
  have high {k : Nat} (lo : 4 ≤ k) (hi : k < 8) :
      (applyRec o r).status.getLsbD k = r.status.getLsbD k := by
    rw [applyRec_status_getLsbD o r hi, BitVec.getLsbD_of_ge o.stClr k lo, BitVec.getLsbD_of_ge o.stSet k lo]
    simp
  rw [reserved_eq_zero_iff] at clear ⊢
  rwa [high (by decide) (by decide), high (by decide) (by decide), high (by decide) (by decide),
    high (by decide) (by decide)]

theorem validRec_applyRec {o : OvSpec} {r : ChRec} (fits : ovInRange o = true) (valid : validRec r = true) :
    validRec (applyRec o r) = true := by
  obtain ⟨ovV, ovI, ovT⟩ := (ovInRange_iff o).mp fits
  obtain ⟨nomV, nomI, nomT, clear⟩ := (validRec_iff r).mp valid
  rw [validRec_iff]
  refine ⟨?_, ?_, ?_, applyRec_reserved o clear⟩
  · exact iteInduction (motive := fun v : U16 => v.toNat ≤ V_MAX) ovV fun _ => nomV
  · exact iteInduction (motive := fun i : U16 => i.toNat ≤ I_MAX) ovI fun _ => nomI
  · exact iteInduction (motive := fun t : U16 => T_MIN ≤ asi16 t ∧ asi16 t ≤ T_MAX) ovT fun _ => nomT

theorem validSet_iff (set : ChannelSet) : validSet set = true ↔ ∀ c : Fin 8, validRec set[c] = true := by
  have noDefect := not_congr (rangeWarn_iff set)
  simpa [rangeWarn] using noDefect

theorem validSet_applyOvs {ov : Vector OvSpec 8} {nom : ChannelSet} (valid : validSet nom = true)
    (fits : ∀ c : Fin 8, ovInRange ov[c] = true) : validSet (applyOvs ov nom) = true := by
  rw [validSet_iff] at valid ⊢
  intro c
  rw [applyOvs_get]
  exact validRec_applyRec (fits c) (valid c)

/-! ### Overrides stay in range (R233) -/

/-- Every entry of a well-formed table selects values in range (WF2); an id that names no scenario has no
entry. -/
theorem timeline_specs_inRange {cfg : Config} (table : wellFormedTable cfg = true) (id : BitVec 8) :
    ∀ e ∈ (timeline cfg id).entries, ovInRange e.spec = true := by
  intro e he
  rcases Nat.lt_or_ge id.toNat cfg.rom.length with known | unknown
  · rw [timeline, List.getD_eq_getElem _ _ known] at he
    simp only [wellFormedTable, wellFormedScenario, Bool.and_eq_true, List.all_eq_true] at table
    obtain ⟨_, _, entries⟩ := table _ (List.getElem_mem known)
    obtain ⟨⟨specFits, _⟩, _⟩ := entries e he
    exact specFits
  · rw [timeline, List.getD_eq_default _ _ unknown] at he
    cases he

/-- Firing merges specs of the timeline into the overrides, and they are in range. -/
theorem fireAll_inRange {tl : Scenario} (specs : ∀ e ∈ tl.entries, ovInRange e.spec = true) {c : Scn}
    (fits : ∀ ch : Fin 8, ovInRange c.ov[ch] = true) (now : U32) (ch : Fin 8) :
    ovInRange (fireAll tl now c).ov[ch] = true := by
  rw [fireAll_eq_foldl, foldl_fireOne_ov]
  refine ovInRange_foldl_ovMerge (fun o ho => ?_) (fits ch)
  obtain ⟨p, hp, rfl⟩ := List.mem_map.mp ho
  obtain ⟨entry, _⟩ := mem_dueEntries.mp (List.mem_of_mem_filter hp)
  exact specs p.2 (List.mem_of_getElem? entry)

theorem tick_inRange {cfg : Config} (table : wellFormedTable cfg = true) {c : Scn}
    (fits : ∀ ch : Fin 8, ovInRange c.ov[ch] = true) (dt : U32) (ch : Fin 8) :
    ovInRange (tick cfg c dt).ov[ch] = true := by
  rcases tick_cases cfg c dt with ⟨_, h⟩ | ⟨_, h⟩ | ⟨_, h⟩ <;> rw [h]
  · exact fits ch
  · rcases Nat.lt_or_ge (satAdd32 c.elapsedMs dt).toNat (timeline cfg c.scnId).durationMs.toNat
      with before | reached
    · rw [tickActive_of_lt before]
      exact fireAll_inRange (timeline_specs_inRange table c.scnId) fits _ ch
    · rw [tickActive_of_le reached]
      exact ovInRange_clearOvs ch
  · rw [tickComplete_ov]
    exact fits ch

/-- The table is well formed and the overrides are in range. -/
def OvsInRange (s : State) : Prop :=
  wellFormedTable s.cfg = true ∧ ∀ c : Fin 8, ovInRange s.scn.ov[c] = true

theorem tickRuns_inRange {s : State} (h : OvsInRange s) (n : Nat) (dt : U32) :
    ∀ c : Fin 8, ovInRange (tickRuns n dt s).scn.ov[c] = true := by
  induction n generalizing s with
  | zero => exact h.2
  | succ n ih =>
    obtain ⟨table, fits⟩ := h
    exact ih (s := tickRun dt s) ⟨table, tick_inRange table fits dt⟩

/-- Every operation keeps the overrides in range: RESET and a trigger clear them, a tick merges. -/
theorem exec_keeps_ovsInRange {i : Instr} {s t : State} (run : exec i s = .next t) (h : OvsInRange s) :
    OvsInRange t := by
  obtain ⟨cfg, _⟩ := exec_restKept run
  refine ⟨cfg ▸ h.1, ?_⟩
  cases exec_scnChange run with
  | kept scn =>
    rw [scn]
    exact h.2
  | reset _ scn =>
    rw [scn]
    exact ovInRange_clearOvs
  | started id _ _ scn =>
    rw [scn]
    exact ovInRange_clearOvs
  | ticked n dt _ scn =>
    rw [scn]
    exact tickRuns_inRange h n dt

theorem withoutOperation_keeps_ovsInRange (why : DecodeError) {s : State} (h : OvsInRange s) :
    OvsInRange (withoutOperation why s) := by
  obtain ⟨⟨_, _, scn⟩, _, _, cfg, _⟩ := withoutOperation_frame why s
  rwa [OvsInRange, scn, cfg]

theorem step_keeps_ovsInRange {s t : State} (run : step s = .next t) (h : OvsInRange s) : OvsInRange t := by
  rcases step_cases s with ⟨_, hs⟩ | ⟨r, rest, _, ⟨i, _, hs⟩ | ⟨why, _, hs⟩⟩ <;> rw [hs] at run
  · cases run
    exact h
  · exact exec_keeps_ovsInRange (s := takeRequest rest s) run h
  · cases run
    exact withoutOperation_keeps_ovsInRange (s := takeRequest rest s) why h

theorem ovsInRange_reset : OvsInRange State.reset := ⟨by decide, ovInRange_clearOvs⟩

/-- Settles O42: an invariant of every step, and the mux on overrides that meet it. -/
theorem overridesStayInRange : Obligations.OverridesStayInRange :=
  ⟨ovsInRange_reset, fun _ _ table fits run => step_keeps_ovsInRange run ⟨table, fits⟩,
    fun _ _ valid fits => ⟨_, _, rfl, rfl, validSet_applyOvs valid fits⟩⟩

end Sys2Proof.Machine
end

section
/-! SUPPORT. Settled statements of 42_scenario_state_machine.md on SC_TICK: nothing in idle, the due entries in
active however the time is cut, the settle delay in complete (R221 to R224). -/

namespace Sys2Proof.Machine

/-- SC_TICK leaves ENC, DEC, the parameters and the presented operations alone. -/
theorem tickRun_frame (dt : U32) (s : State) :
    encKept s (tickRun dt s) ∧ decKept s (tickRun dt s) ∧ restKept s (tickRun dt s) :=
  tickRuns_frame 1 dt s

theorem tick_of_active (cfg : Config) {c : Scn} (active : c.scnStatus = .active) (dt : U32) :
    tick cfg c dt = tickActive (timeline cfg c.scnId) c dt := by
  simp [tick, active]

theorem tick_of_complete (cfg : Config) {c : Scn} (complete : c.scnStatus = .complete) (dt : U32) :
    tick cfg c dt = tickComplete cfg c dt := by
  simp [tick, complete]

@[simp] theorem tickRun_scn (dt : U32) (s : State) : (tickRun dt s).scn = tick s.cfg s.scn dt := rfl

/-! ### Idle (R221) -/

/-- Settles O32. -/
theorem scTickInIdleChangesNothing : Obligations.ScTickInIdleChangesNothing := by
  intro dt s idle
  have scn : tick s.cfg s.scn dt = s.scn := by simp [tick, idle]
  exact ⟨_, rfl, scn, rfl, rfl, tickRun_frame dt s⟩

/-! ### Complete (R224) -/

/-- A sum that saturates is `satAdd32`. -/
theorem eq_satAdd32 {n a b : U32} (h : n.toNat = min (a.toNat + b.toNat) (2 ^ 32 - 1)) : n = satAdd32 a b :=
  BitVec.eq_of_toNat_eq (h.trans (satAdd32_toNat a b).symm)

/-- Settles O34: with SCN's invariant the overrides, which the tick keeps, are clear already. -/
theorem scTickInCompleteSettles : Obligations.ScTickInCompleteSettles := by
  intro dt settle s complete sum
  obtain rfl := eq_satAdd32 sum
  have settled (reached : s.cfg.settleMs.toNat ≤ (satAdd32 s.scn.settleMs dt).toNat) :
      tick s.cfg s.scn dt = { Scn.reset s.cfg.maxEntries with ov := s.scn.ov } := by
    rw [tick_of_complete s.cfg complete, tickComplete_of_le reached]
  refine ⟨_, rfl, fun before => ?_, settled, fun inv reached => ?_, rfl, rfl, tickRun_frame dt s⟩
  · exact (tick_of_complete s.cfg complete dt).trans (tickComplete_of_lt before)
  · have clear : s.scn.ov = clearOvs := inv.clear (by simp [complete])
    refine (settled reached).trans ?_
    rw [clear]
    rfl

/-! ### Active (R222) -/

/-- What a tick in active does on either side of the duration. -/
theorem tickActive_common (tl : Scenario) (c : Scn) (dt : U32) :
    (tickActive tl c dt).elapsedMs = satAdd32 c.elapsedMs dt
      ∧ (tickActive tl c dt).scnId = c.scnId
      ∧ (tickActive tl c dt).fired = (fireAll tl (satAdd32 c.elapsedMs dt) c).fired
      ∧ (tickActive tl c dt).curEvent = (fireAll tl (satAdd32 c.elapsedMs dt) c).curEvent := by
  rcases Nat.lt_or_ge (satAdd32 c.elapsedMs dt).toNat tl.durationMs.toNat with before | reached
  · rw [tickActive_of_lt before]
    exact ⟨rfl, rfl, rfl, rfl⟩
  · rw [tickActive_of_le reached]
    exact ⟨rfl, rfl, rfl, rfl⟩

/-- Settles O33: the loop is a fold over the due entries. -/
theorem scTickInActiveFiresTheDue : Obligations.ScTickInActiveFiresTheDue := by
  rintro dt now s tl due active rfl wide sum rfl
  obtain rfl := eq_satAdd32 sum
  obtain ⟨elapsed, id, fired, event⟩ := tickActive_common (timeline s.cfg s.scn.scnId) s.scn dt
  rw [← tick_of_active s.cfg active] at elapsed id fired event
  refine ⟨_, rfl, elapsed, id, ?_, fun i => ?_, ?_, fun before => ?_, fun reached => ?_, rfl, rfl,
    tickRun_frame dt s⟩
  · exact (congrArg List.length fired).trans (fireFrom_fired_length _ _ _ _)
  · rw [State.answer_scn, tickRun_scn, fired]
    exact fireAll_fired wide _ i
  · refine event.trans ?_
    rw [fireAll_eq_foldl, foldl_fireOne_curEvent]
    cases (dueEntries (satAdd32 s.scn.elapsedMs dt) s.scn.fired (timeline s.cfg s.scn.scnId)).getLast? <;> rfl
  · rw [State.answer_scn, tickRun_scn, tick_of_active s.cfg active, tickActive_of_lt before, fireAll_eq_foldl]
    exact ⟨active, rfl, foldl_fireOne_ov _ _⟩
  · rw [State.answer_scn, tickRun_scn, tick_of_active s.cfg active, tickActive_of_le reached]
    exact ⟨rfl, rfl, clearOvs_get⟩

/-! ### Two ticks are one (R223) -/

theorem satAdd32_assoc (a b c : U32) : satAdd32 (satAdd32 a b) c = satAdd32 a (satAdd32 b c) := by
  apply BitVec.eq_of_toNat_eq
  simp only [satAdd32_toNat]
  omega

/-- Before the first due entry of an ordered stretch nothing fires. -/
theorem fireFrom_of_none_due {now : U32} {l : List Entry} (later : ∀ e ∈ l, now.toNat < e.offsetMs.toNat)
    (i : Nat) (w : Firing) : fireFrom now i l w = w := by
  induction l generalizing i with
  | nil => rfl
  | cons e l ih =>
    have notDue : ¬ isDue now i e w.fired = true := fun due =>
      Nat.not_lt.mpr (isDue_iff.mp due).2 (later e List.mem_cons_self)
    rw [fireFrom, fireEntry_of_not_due notDue]
    exact ih (fun e he => later e (List.mem_cons_of_mem _ he)) (i + 1)

/-- What has fired stays fired. -/
theorem fireFrom_keeps_fired (now : U32) (i : Nat) (l : List Entry) {w : Firing} {j : Nat}
    (h : w.fired.getD j false = true) : (fireFrom now i l w).fired.getD j false = true := by
  induction l generalizing i w with
  | nil => exact h
  | cons e l ih =>
    refine ih (i + 1) ?_
    by_cases due : isDue now i e w.fired = true
    · have apart : i ≠ j := fun same =>
      Bool.false_ne_true ((isDue_iff.mp due).1.symm.trans (same ▸ h))
      rw [fireEntry_of_due due]
      simpa [fireOne, List.getD_eq_getElem?_getD, List.getElem?_set_ne apart] using h
    · rwa [fireEntry_of_not_due due]

/-- An entry at or past its offset has fired after its turn. -/
theorem fireEntry_fired {now : U32} {i : Nat} {e : Entry} {w : Firing} (inside : i < w.fired.length)
    (past : e.offsetMs.toNat ≤ now.toNat) : (fireEntry now i e w).fired.getD i false = true := by
  by_cases due : isDue now i e w.fired = true
  · rw [fireEntry_of_due due]
    simp [fireOne, List.getD_eq_getElem?_getD, inside]
  · rw [fireEntry_of_not_due due]
    by_contra unfired
    exact due (isDue_iff.mpr ⟨Bool.eq_false_of_not_eq_true unfired, past⟩)

/-- With ordered offsets the entries due by an earlier time come first, so firing them before the others is
firing all at the later time (R223). -/
theorem fireFrom_fireFrom {now later : U32} (le : now.toNat ≤ later.toNat) {l : List Entry}
    (ordered : offsetsOrdered l = true) {i : Nat} {w : Firing} (wide : i + l.length ≤ w.fired.length) :
    fireFrom later i l (fireFrom now i l w) = fireFrom later i l w := by
  induction l generalizing i w with
  | nil => rfl
  | cons e l ih =>
    simp only [offsetsOrdered, Bool.and_eq_true, List.all_eq_true, decide_eq_true_eq] at ordered
    obtain ⟨after, ordered⟩ := ordered
    rw [List.length_cons] at wide
    by_cases past : e.offsetMs.toNat ≤ now.toNat
    · have first : fireEntry now i e w = fireEntry later i e w := by
        simp [fireEntry, isDue, past, past.trans le]
      have fired : (fireEntry later i e w).fired.getD i false = true :=
        fireEntry_fired (by omega) (past.trans le)
      have width : (fireEntry later i e w).fired.length = w.fired.length :=
        fireFrom_fired_length later i [e] w
      have again : fireEntry later i e (fireFrom now (i + 1) l (fireEntry later i e w))
          = fireFrom now (i + 1) l (fireEntry later i e w) := by
        have still := fireFrom_keeps_fired now (i + 1) l fired
        exact fireEntry_of_not_due fun due => Bool.false_ne_true ((isDue_iff.mp due).1.symm.trans still)
      calc fireFrom later i (e :: l) (fireFrom now i (e :: l) w)
          = fireFrom later (i + 1) l (fireEntry later i e (fireFrom now (i + 1) l (fireEntry now i e w))) := rfl
        _ = fireFrom later (i + 1) l (fireFrom now (i + 1) l (fireEntry later i e w)) := by rw [first, again]
        _ = fireFrom later i (e :: l) w := ih ordered (by omega)
    · have none : fireFrom now i (e :: l) w = w := by
        refine fireFrom_of_none_due (fun f hf => ?_) i w
        rcases List.mem_cons.mp hf with rfl | hf
        · omega
        · exact Nat.lt_of_lt_of_le (Nat.lt_of_not_le past) (after f hf)
      rw [none]

/-- A tick before the duration and a later one are one tick of their sum (R223). -/
theorem tickActive_tickActive {tl : Scenario} {c : Scn} (ordered : offsetsOrdered tl.entries = true)
    (wide : tl.entries.length ≤ c.fired.length) {a : U32}
    (before : (satAdd32 c.elapsedMs a).toNat < tl.durationMs.toNat) (b : U32) :
    tickActive tl (tickActive tl c a) b = tickActive tl c (satAdd32 a b) := by
  have firing : fireAll tl (satAdd32 (satAdd32 c.elapsedMs a) b) (tickActive tl c a)
      = fireAll tl (satAdd32 (satAdd32 c.elapsedMs a) b) c := by
    rw [tickActive_of_lt before]
    exact fireFrom_fireFrom (le_satAdd32 _ b) ordered (by simpa using wide)
  rw [satAdd32_assoc, tickActive_of_lt before] at firing
  rw [tickActive_of_lt before]
  simp only [tickActive, satAdd32_assoc, firing]

/-! ### The status under a tick (R200) -/

/-- A tick completes a run at its duration, settles it at the settle time, and else keeps the status. -/
theorem tick_scnStatus (cfg : Config) (c : Scn) (dt : U32) :
    (tick cfg c dt).scnStatus = c.scnStatus
    ∨ (c.scnStatus = .active ∧ (tick cfg c dt).scnStatus = .complete
      ∧ (timeline cfg c.scnId).durationMs.toNat ≤ (satAdd32 c.elapsedMs dt).toNat)
    ∨ (c.scnStatus = .complete ∧ (tick cfg c dt).scnStatus = .idle
      ∧ cfg.settleMs.toNat ≤ (satAdd32 c.settleMs dt).toNat) := by
  rcases tick_cases cfg c dt with ⟨_, h⟩ | ⟨active, h⟩ | ⟨complete, h⟩ <;> rw [h]
  · exact .inl rfl
  · rcases Nat.lt_or_ge (satAdd32 c.elapsedMs dt).toNat (timeline cfg c.scnId).durationMs.toNat
      with before | reached
    · exact .inl (by rw [tickActive_of_lt before])
    · exact .inr (.inl ⟨active, by rw [tickActive_of_le reached], reached⟩)
  · rcases Nat.lt_or_ge (satAdd32 c.settleMs dt).toNat cfg.settleMs.toNat with before | reached
    · exact .inl (by rw [tickComplete_of_lt before])
    · exact .inr (.inr ⟨complete, by rw [tickComplete_of_le reached]; rfl, reached⟩)

/-- A tick never makes a run active. -/
theorem active_of_tick_active {cfg : Config} {c : Scn} {dt : U32}
    (still : (tick cfg c dt).scnStatus = .active) : c.scnStatus = .active := by
  rcases tick_scnStatus cfg c dt with same | ⟨active, _⟩ | ⟨_, idle, _⟩
  · rwa [← same]
  · exact active
  · simp [idle] at still

/-- Settles O38, by what an operation can do to SCN. -/
theorem statusHasOnlyItsTransitions : Obligations.StatusHasOnlyItsTransitions := by
  intro i s t run notPseudo changed
  cases exec_scnChange run with
  | kept scn => exact absurd (congrArg Scn.scnStatus scn) changed
  | reset op => exact .inl op
  | started id op known scn =>
    have now : t.scn.scnStatus = .active := congrArg Scn.scnStatus scn
    exact .inr (.inl ⟨id, op, fun before => changed (now.trans before.symm), known, now⟩)
  | ticked n dt op =>
    rcases op with rfl | rfl | ⟨nom, rfl⟩
    · cases run
      rcases tick_scnStatus s.cfg s.scn dt with same | ⟨active, complete, reached⟩ | ⟨complete, idle, reached⟩
      · exact absurd same changed
      · rw [satAdd32_toNat] at reached
        exact .inr (.inr (.inl ⟨dt, rfl, active, complete, reached⟩))
      · rw [satAdd32_toNat] at reached
        exact .inr (.inr (.inr ⟨dt, rfl, complete, idle, reached⟩))
    · exact absurd rfl notPseudo
    · exact absurd rfl notPseudo

/-! ### Sequences of ticks (R223) -/

/-- The premises of R223 on a run: active, with ordered offsets (WF3) and a bit of `fired` for each entry. -/
structure Cuttable (cfg : Config) (c : Scn) : Prop where
  active : c.scnStatus = .active
  ordered : offsetsOrdered (timeline cfg c.scnId).entries = true
  wide : (timeline cfg c.scnId).entries.length ≤ c.fired.length

/-- A run keeps its scenario and its width, so it can be cut again while it is active. -/
theorem Cuttable.tick {cfg : Config} {c : Scn} (cut : Cuttable cfg c) {dt : U32}
    (still : (tick cfg c dt).scnStatus = .active) : Cuttable cfg (tick cfg c dt) := by
  obtain ⟨_, id, fired, _⟩ := tickActive_common (timeline cfg c.scnId) c dt
  rw [← tick_of_active cfg cut.active] at id fired
  refine ⟨still, by rw [id]; exact cut.ordered, ?_⟩
  rw [id, fired, fireAll, fireFrom_fired_length]
  exact cut.wide

/-- A tick after which the run is still active came before the duration. -/
theorem lt_duration_of_tick_active {cfg : Config} {c : Scn} {dt : U32}
    (still : (tick cfg c dt).scnStatus = .active) :
    (satAdd32 c.elapsedMs dt).toNat < (timeline cfg c.scnId).durationMs.toNat := by
  rw [tick_of_active cfg (active_of_tick_active still)] at still
  by_contra reached
  rw [tickActive_of_le (Nat.not_lt.mp reached)] at still
  cases still

/-- Two ticks of a run that is active between them are one tick of their sum (R223). -/
theorem Cuttable.tick_tick {cfg : Config} {c : Scn} (cut : Cuttable cfg c) {a : U32}
    (still : (Machine.tick cfg c a).scnStatus = .active) (b : U32) :
    Machine.tick cfg (Machine.tick cfg c a) b = Machine.tick cfg c (satAdd32 a b) := by
  obtain ⟨_, id, _⟩ := tickActive_common (timeline cfg c.scnId) c a
  rw [tick_of_active cfg still, tick_of_active cfg cut.active, tick_of_active cfg cut.active, id]
  exact tickActive_tickActive cut.ordered cut.wide (lt_duration_of_tick_active still) b

theorem sat32_of_toNat (a : U32) : sat32 a.toNat = a := by
  have := a.isLt
  apply BitVec.eq_of_toNat_eq
  rw [sat32, BitVec.toNat_ofNat]
  omega

theorem satAdd32_sat32 (a : U32) (n : Nat) : satAdd32 a (sat32 n) = sat32 (a.toNat + n) := by
  apply BitVec.eq_of_toNat_eq
  rw [satAdd32_toNat, sat32, sat32, BitVec.toNat_ofNat, BitVec.toNat_ofNat]
  omega

/-- A sequence of ticks that ends active begins active. -/
theorem active_of_runOps_ticks {as : List U32} {s u : State} (run : runOps (as.map .scTick) s = some u)
    (still : u.scn.scnStatus = .active) : s.scn.scnStatus = .active := by
  induction as generalizing s with
  | nil =>
    cases run
    exact still
  | cons a as ih => exact active_of_tick_active (ih (s := (tickRun a s).answer .silent) run)

/-- A sequence of ticks and one more tick are one tick of the sum (R223). -/
theorem runOps_ticks_tick (as : List U32) {s u : State} (cut : Cuttable s.cfg s.scn)
    (run : runOps (as.map .scTick) s = some u) (still : u.scn.scnStatus = .active) (a : U32) :
    tick u.cfg u.scn a = tick s.cfg s.scn (sat32 ((as.map BitVec.toNat).sum + a.toNat)) := by
  induction as generalizing s with
  | nil =>
    cases run
    rw [List.map_nil, List.sum_nil, Nat.zero_add, sat32_of_toNat]
  | cons b as ih =>
    have between : (tick s.cfg s.scn b).scnStatus = .active :=
      active_of_runOps_ticks (as := as) (s := (tickRun b s).answer .silent) run still
    calc tick u.cfg u.scn a
        = tick s.cfg (tick s.cfg s.scn b) (sat32 ((as.map BitVec.toNat).sum + a.toNat)) :=
          ih (s := (tickRun b s).answer .silent) (cut.tick between) run
      _ = tick s.cfg s.scn (satAdd32 b (sat32 ((as.map BitVec.toNat).sum + a.toNat))) :=
          cut.tick_tick between _
      _ = tick s.cfg s.scn (sat32 (((b :: as).map BitVec.toNat).sum + a.toNat)) := by
          rw [satAdd32_sat32, List.map_cons, List.sum_cons, Nat.add_assoc]

/-- Settles O36: each sequence is one tick of its sum. -/
theorem tickSplitDoesNotMatter : Obligations.TickSplitDoesNotMatter := by
  intro as bs a b s u v active ordered wide sums runU activeU runV activeV
  have cut : Cuttable s.cfg s.scn := ⟨active, ordered, wide⟩
  refine ⟨_, _, rfl, rfl, ?_⟩
  calc tick u.cfg u.scn a
      = tick s.cfg s.scn (sat32 ((as.map BitVec.toNat).sum + a.toNat)) := runOps_ticks_tick as cut runU activeU a
    _ = tick s.cfg s.scn (sat32 ((bs.map BitVec.toNat).sum + b.toNat)) := by rw [sums]
    _ = tick v.cfg v.scn b := (runOps_ticks_tick bs cut runV activeV b).symm

end Sys2Proof.Machine
end

section
/-! SUPPORT. Settled statements of 42_scenario_state_machine.md on SC_NOP and SC_RSV, SC_TRIGGER and the reads of
SCN (R209 to R211, R226, R227, R230, R231). -/

namespace Sys2Proof.Machine

/-! ### Commands (R209 to R211, R226, R227) -/

theorem scIdle_frame (s : State) :
    encKept s (scIdle s) ∧ decKept s (scIdle s) ∧ restKept s (scIdle s) := by
  simp [scIdle, encKept, decKept, restKept]

/-- Settles O30. -/
theorem scNoOpsKeepEveryRegister : Obligations.ScNoOpsKeepEveryRegister :=
  ⟨fun _ _ => ⟨rfl, rfl⟩, fun s => ⟨_, rfl, rfl, rfl, rfl, rfl, scIdle_frame s⟩⟩

/-- Settles O31, in the order of the trigger's checks. -/
theorem scTriggerStartsOrRejects : Obligations.ScTriggerStartsOrRejects := by
  refine ⟨fun _ _ => rfl, rfl, rfl, rfl, fun id s => ⟨triggerRun id s, rfl, ?_⟩⟩
  have frame := triggerRun_frame id s
  rcases triggerRun_cases id s with ⟨active, run⟩ | ⟨stopped, unknown, run⟩ | ⟨stopped, known, run⟩ <;>
    rw [run] at frame ⊢
  · exact ⟨fun _ => ⟨rfl, rfl⟩, fun h => absurd active h, fun h => absurd active h, rfl, frame⟩
  · exact ⟨fun h => absurd h stopped, fun _ _ => ⟨rfl, rfl⟩, fun _ h => absurd h (Nat.not_lt.mpr unknown), rfl,
      frame⟩
  · exact ⟨fun h => absurd h stopped, fun _ h => absurd known (Nat.not_lt.mpr h), fun _ _ => ⟨rfl, rfl⟩, rfl,
      frame⟩

/-! ### SC_STATUS (R230) -/

/-- An id of the table reads its own scenario (R202). -/
theorem timeline_of_known {cfg : Config} {id : BitVec 8} {x : Scenario} (known : cfg.rom[id.toNat]? = some x) :
    timeline cfg id = x := by
  rw [timeline, List.getD_eq_getElem?_getD, known]
  rfl

theorem scenarioName_of_known {cfg : Config} {id : BitVec 8} {x : Scenario} (some_id : id ≠ NONE)
    (known : cfg.rom[id.toNat]? = some x) : scenarioName cfg id = x.name := by
  rw [scenarioName, if_neg some_id, timeline_of_known known]

theorem scenarioDescription_of_known {cfg : Config} {id : BitVec 8} {x : Scenario} (some_id : id ≠ NONE)
    (known : cfg.rom[id.toNat]? = some x) : scenarioDescription cfg id = x.description := by
  rw [scenarioDescription, if_neg some_id, timeline_of_known known]

theorem eventText_of_known {cfg : Config} {id ev : BitVec 8} {x : Scenario} {e : Entry}
    (known : cfg.rom[id.toNat]? = some x) (some_event : ev ≠ NONE) (entry : x.entries[ev.toNat]? = some e) :
    eventText cfg id ev = e.eventText := by
  rw [eventText, if_neg some_event, timeline_of_known known, entry]
  rfl

/-- Settles O39: the texts are looked up with the two indices, which in idle are both `NONE`. -/
theorem scStatusAnswersTheRun : Obligations.ScStatusAnswersTheRun := by
  intro s
  have noText (h : s.scn.scnId = NONE) :
      scenarioName s.cfg s.scn.scnId = "" ∧ scenarioDescription s.cfg s.scn.scnId = "" :=
    ⟨if_pos h, if_pos h⟩
  have noEvent (h : s.scn.curEvent = NONE) : eventText s.cfg s.scn.scnId s.scn.curEvent = "" := if_pos h
  refine ⟨_, statusView s.cfg s.scn, rfl, rfl, rfl, rfl, rfl, rfl, ?_, fun x some_id known => ?_, noText,
    noEvent, fun inv idle => ?_, answer_frame _ s⟩
  · exact div_mul_cancel₀ _ (by norm_num)
  · exact ⟨scenarioName_of_known some_id known, scenarioDescription_of_known some_id known,
      fun e => eventText_of_known known⟩
  · have reset := inv.idle idle
    obtain ⟨name, description⟩ := noText (congrArg Scn.scnId reset)
    exact ⟨name, description, noEvent (congrArg Scn.curEvent reset), congrArg Scn.elapsedMs reset⟩

/-! ### OV_READ (R231) -/

theorem mem_activeOverrides {ov : Vector OvSpec 8} {c : Fin 8} {o : OvSpec} :
    (c, o) ∈ activeOverrides ov ↔ o = ov[c] ∧ o.mask ≠ 0#4 := by
  simp only [activeOverrides, List.mem_filterMap, List.mem_finRange, true_and]
  constructor
  · rintro ⟨d, h⟩
    split_ifs at h with clear
    cases h
    exact ⟨rfl, clear⟩
  · rintro ⟨rfl, selects⟩
    exact ⟨c, if_neg selects⟩

theorem activeOverrides_clearOvs : activeOverrides clearOvs = [] := by decide

/-- Settles O40: outside active the overrides are clear (R57 item 9). -/
theorem ovReadListsTheOverridden : Obligations.OvReadListsTheOverridden := by
  intro s
  refine ⟨_, activeOverrides s.scn.ov, rfl, rfl, fun _ _ => mem_activeOverrides, fun inv stopped => ?_,
    answer_frame _ s⟩
  rw [inv.clear stopped]
  exact activeOverrides_clearOvs

end Sys2Proof.Machine
end

section
/-! SUPPORT. Settled statement of 60_exceptions.md: no failure stops the block (R273). -/

namespace Sys2Proof.Machine

/-- No step ends in a fault or a refusal, whether nothing is presented, an operation, or a request that asks
for none (R273). -/
theorem step_answers (s : State) : ∃ t, step s = .next t := by
  rcases step_cases s with ⟨_, nothing⟩ | ⟨r, rest, _, ⟨i, _, operation⟩ | ⟨why, _, noOperation⟩⟩
  · exact ⟨s, nothing⟩
  · rw [operation]
    exact exec_answers i (takeRequest rest s)
  · exact ⟨withoutOperation why (takeRequest rest s), noOperation⟩

/-- Settles O52. -/
theorem everyOperationIsEnabled : Obligations.EveryOperationIsEnabled :=
  ⟨exec_answers, step_answers⟩

end Sys2Proof.Machine
end

section
/-! SUPPORT. Settled statements of 70_reset_and_hazards.md: RESET and its ports (R300), and PRODUCE, whose tick
comes before the override mux and the frame (R320). -/

namespace Sys2Proof.Machine

/-! ### PRODUCE (R124, R320) -/

/-- PRODUCE is ENCODE, from the ticked state, of the nominal set under the overrides as the tick left them. -/
theorem exec_produce (dt : U32) (nom : ChannelSet) (s : State) :
    exec (.produce dt nom) s = exec (.encode (applyOvs (tickRun dt s).scn.ov nom)) (tickRun dt s) := rfl

/-- Settles O9: the tick keeps ENC idle, so ENCODE from the ticked state sends its whole frame (R137) and leaves
SCN as ticked. -/
theorem produceSendsTheEffectiveSet : Obligations.ProduceSendsTheEffectiveSet := by
  intro dt nom s idle
  obtain ⟨⟨enc, _, tx⟩, decTicked, ⟨cfgTicked, pendTicked⟩⟩ := tickRun_frame dt s
  obtain ⟨t, run, sent, result, encSent, ports, dec, ⟨scn, trig⟩, ⟨cfg, pend⟩⟩ :=
    encodeEmitsItsFrame (applyOvs (tickRun dt s).scn.ov nom) (tickRun dt s) (enc.symm ▸ idle)
  have decKeptThrough : decKept s t := portKept_trans (p := .rxCmd) decTicked dec
  exact ⟨t, (tickRun dt s).answer .silent, _, _, (exec_produce dt nom s).trans run, rfl, rfl, rfl, scn, trig,
    tx ▸ sent, result, encSent, ports, decKeptThrough, cfg.trans cfgTicked, pend.trans pendTicked⟩

/-! ### RESET (R300) -/

/-- Settles O43: RESET writes the reset value of every unit, whatever the state held. -/
theorem resetGivesEveryRegisterItsValue : Obligations.ResetGivesEveryRegisterItsValue := by
  refine ⟨rfl, fun p high => requests_of_rst high, fun s => ⟨resetBlock s, rfl, ?_⟩⟩
  exact ⟨resetBlock_enc s, resetBlock_dec s, resetBlock_scn s, resetBlock_encOut s, resetBlock_rxResult s, rfl,
    resetBlock_trig s, resetBlock_txStream s, resetBlock_cfg s⟩

end Sys2Proof.Machine
end

section
/-! SUPPORT. Settled statements on the model's own choices where the spec is silent: ENCODE and PRODUCE while ENC
is busy (log 14), and what RESET does to the rx stream and to the operations still presented (log 1, log 12). -/

namespace Sys2Proof.Machine

/-! ### ENCODE and PRODUCE while ENC is busy (log 14) -/

theorem exec_encode_of_busy (set : ChannelSet) {s : State} (busy : s.enc.encBusy = true) :
    exec (.encode set) s = .next (loadSet set s) := by
  rw [← encodeSet_busy set s busy]
  rfl

/-- Settles O8: the tick keeps ENC busy, so ENCODE is its refused load for both, from the ticked state for
PRODUCE. -/
theorem encodeWhileBusyEmitsNothing : Obligations.EncodeWhileBusyEmitsNothing := by
  intro set dt s busy
  refine ⟨⟨loadSet set s, exec_encode_of_busy set busy, rfl⟩, ?_⟩
  obtain ⟨⟨encTicked, _, txTicked⟩, decTicked, ⟨cfgTicked, pendTicked⟩⟩ := tickRun_frame dt s
  have stillBusy : (tickRun dt s).enc.encBusy = true := encTicked ▸ busy
  obtain ⟨t, run, _, refused, tx, dec, ⟨scn, trig⟩, ⟨cfg, pend⟩⟩ :=
    encLoadLatchesOrRefuses.2 (applyOvs (tickRun dt s).scn.ov set) (tickRun dt s)
  obtain ⟨enc, _, result⟩ := refused stillBusy
  have produce : exec (.produce dt set) s = .next t := by
    rw [exec_produce, exec_encode_of_busy _ stillBusy]
    exact run
  exact ⟨t, (tickRun dt s).answer .silent, produce, rfl, enc.trans encTicked, tx.trans txTicked, result, scn,
    trig, portKept_trans (p := .rxCmd) decTicked dec, cfg.trans cfgTicked, pend.trans pendTicked⟩

/-! ### RESET and the streams (log 1, log 12) -/

/-- With an empty rx stream the cursor is at its start (R61). -/
theorem cursor_of_rxStream_nil {s : State} (empty : s.rxStream = []) : cursor s = 0 := by
  rw [cursor, empty]
  exact Nat.zero_sub _

/-- Settles O44. -/
theorem resetStartsTheRxStreamOver : Obligations.ResetStartsTheRxStreamOver := fun s =>
  ⟨resetBlock s, rfl, resetBlock_rxStream s, cursor_of_rxStream_nil (resetBlock_rxStream s), resetBlock_pending s⟩

end Sys2Proof.Machine
end

section
/-! SUPPORT. Settled statements on the model's own choices of what one step performs: a step without an operation
(log 4, log 5), and a step on a stored table word (log 3). -/

namespace Sys2Proof.Machine

/-! ### Steps without an operation (R119, R124, R285; log 4, log 5) -/

/-- The two requests that ask for no operation: `rst` at 0 alone (R119) and RX_BYTES of no byte (R124). -/
theorem decode_error_iff (r : Request) (e : DecodeError) : decode r = .error e ↔
    (r = .rst 0#1 ∧ e = .rstLow) ∨ (r = .pseudoRxBytes [] ∧ e = .noBytes) := by
  cases r with
  | rst b =>
    obtain rfl | rfl : b = 0#1 ∨ b = 1#1 := by bv_omega
    · simp [decode, eq_comm]
    · simp [decode]
  | pseudoRxBytes bs => cases bs <;> simp [decode, eq_comm]
  | _ => simp [decode]

theorem step_of_pending_nil {s : State} (nothing : s.pending = []) : step s = .next s := by
  simp [step, nothing]

theorem step_of_decode_error {s : State} {r : Request} {rest : List Request} {why : DecodeError}
    (hp : s.pending = r :: rest) (hd : decode r = .error why) :
    step s = .next (withoutOperation why (takeRequest rest s)) := by
  simp [step, hp, hd]

/-- A step in which no unit is given a command is the three no-op commands in a row (R285). -/
theorem runOps_noOps (s : State) : runOps [.encNop, .rxNop, .scNop] s = some (idleStep s) := rfl

/-- Settles O57. -/
theorem stepHoldsWithoutAnOperation : Obligations.StepHoldsWithoutAnOperation := by
  refine ⟨decode_error_iff, fun s => ⟨step_of_pending_nil, fun rest => ⟨fun low => ?_, fun noBytes => ?_⟩⟩⟩
  · obtain ⟨kept, _⟩ := withoutOperation_frame .rstLow (takeRequest rest s)
    exact ⟨idleStep (takeRequest rest s), step_of_decode_error low rfl, kept, runOps_noOps (takeRequest rest s)⟩
  · exact step_of_decode_error noBytes rfl

/-! ### A stored table word (log 3) -/

theorem decode_of_decodeTableWord {nbits w : Nat} {i : Instr} (h : decodeTableWord nbits w = some i) :
    decode (tableRequest nbits w) = .ok i := by
  unfold decodeTableWord at h
  split at h
  next j hd =>
    cases h
    exact hd
  next => cases h

@[simp] theorem State.withFetchWord_pending (s : State) (nbits w : Nat) :
    (s.withFetchWord nbits w).pending = tableRequest nbits w :: s.pending := rfl

/-- Taking the stored word off again leaves the state as it was. -/
@[simp] theorem takeRequest_withFetchWord (s : State) (nbits w : Nat) :
    takeRequest s.pending (s.withFetchWord nbits w) = s := rfl

/-- Settles O58: the stored word is the oldest request, and taking it off gives the state back. -/
theorem fetchWordIsTheNextOperation : Obligations.FetchWordIsTheNextOperation := by
  intro s nbits w i h
  rw [step_of_decode (State.withFetchWord_pending s nbits w) (decode_of_decodeTableWord h),
    takeRequest_withFetchWord]

end Sys2Proof.Machine
end
